-- ==== Sys2Proof/Word.lean ====
section
/-! DEFINITION. The plain words of the model: a byte, a dock, a port, a charge level.
Counts, times, serials and watts are `Nat`: the spec calls them quantities, and says where each one holds or is clamped. -/

namespace Sys2Proof

/-- One byte of a frame, of a key or of the configuration memory. -/
abbrev Byte := BitVec 8

/-- One of the 64 docks; dock number n of the spec (1..64, R89) is the index n - 1. -/
abbrev DockId := Fin 64

/-- The dock number of a dock, 1..64 (R89). -/
def dockNumber (d : DockId) : Nat := d.val + 1

/-- A charge level 0..3 (9.1). -/
abbrev Level := Fin 4

/-- The two identical processor ports (chapter 11). -/
inductive PortId where
  | a
  | b
  deriving DecidableEq, Repr

end Sys2Proof
end

