-- ==== Sys2Proof/Syntax.lean ====
section
/-! DEFINITION. The commands of the part: one constructor per row of spec/opcode_table.json.
A row that is the execution of a request has the port as its operand; the request's own fields are in the frame that
the port holds (R180; log entry 3). -/

namespace Sys2Proof

inductive Instr where
  /-- PORT_TRANSACTION_START (R179). Select is asserted on port `p` and the first byte of the period is shifted: `first` is that byte in, the request code (`none`: no byte is shifted). -/
  | portTransactionStart (p : PortId) (first : Option Byte)
  /-- REQUEST_FRAME_END (R180). The request frame begun on `p` reaches its stated length; `payload` is what followed code and length. -/
  | requestFrameEnd (p : PortId) (payload : List Byte)
  /-- FRAME_SHORT (R182). Select is released before the stated length arrives; the frame is discarded and the error is counted. -/
  | frameShort (p : PortId)
  /-- UNKNOWN_REQUEST (R184). On port `p`: a request whose code names no request is answered UNKNOWN_REQUEST. -/
  | unknownRequest (p : PortId)
  /-- NO_OPERATION (R183). On port `p`: completes at once with DONE and changes no state. -/
  | noOperation (p : PortId)
  /-- READ_PORT_STATUS (R183). On port `p`: reports the port error count, the last port error, the role and READY, then clears the error record. -/
  | readPortStatus (p : PortId)
  /-- READ_STATION_STATUS (R195). On port `p`: returns the station-wide status values as they stand when the request executes. -/
  | readStationStatus (p : PortId)
  /-- SET_EVENT_MASK (R187). On port `p`: sets the port's event enables, which can raise or lower ATTN. -/
  | setEventMask (p : PortId)
  /-- READ_EVENT (R186). On port `p`: returns and clears the highest-priority event that is pending and enabled, or answers NONE. -/
  | readEvent (p : PortId)
  /-- CLEAR_EVENTS (R187). On port `p`: discards the selected pending event flags. -/
  | clearEvents (p : PortId)
  /-- PRESENT_TOKEN (R5). On port `p`: tests a token submission and, when it passes, creates a QUEUED presentation owed 3 result units. -/
  | presentToken (p : PortId)
  /-- READ_RESULT (R22). On port `p`: returns and removes the oldest result in the result queue, or answers EMPTY. -/
  | readResult (p : PortId)
  /-- ADMISSION_START (R7). Admission of the oldest QUEUED entry starts when none is running and no list change waits, and takes its held inputs. -/
  | admissionStart
  /-- ADMISSION_COMPLETE (R8). Admission ends, having run steps 1 to 10 in order, in a refusal or a route. -/
  | admissionComplete
  /-- SET_TIME (R28). On port `p`: sets station time and makes the sync CURRENT with sync age 0, returning the old station time. -/
  | setTime (p : PortId)
  /-- SECOND_BOUNDARY (R25). Each advance of uptime by one second advances station time and drives the per-second tests. -/
  | secondBoundary
  /-- SYNC_LAPSE (R29). The sync age exceeds the sync lifetime in CURRENT, so the sync becomes LAPSED and CLOCK_UNSYNCED is raised. -/
  | syncLapse
  /-- USED_TOKEN_EXPIRY (R62). Expired FINAL used-token entries are purged at the second boundary. -/
  | usedTokenExpiry
  /-- CREDIT_REFILL (R36). At each minute boundary the refill is added to the offline credit, clamped at the cap. -/
  | creditRefill
  /-- LOAD_KEY (R42). On port `p`: writes a generation and key into the NEXT slot unless CURRENT holds that generation. -/
  | loadKey (p : PortId)
  /-- PROMOTE_KEY (R43). On port `p`: moves the NEXT key into CURRENT and empties NEXT. -/
  | promoteKey (p : PortId)
  /-- BEGIN_REVOCATION_LOAD (R48). On port `p`: opens a new loading list with a generation and an announced count, discarding any open one. -/
  | beginRevocationLoad (p : PortId)
  /-- ADD_REVOCATION_RANGES (R49). On port `p`: appends ordered ranges to the open load, or aborts the load with ORDER or COUNT. -/
  | addRevocationRanges (p : PortId)
  /-- COMMIT_REVOCATION_LOAD (R50). On port `p`: puts a complete load in COMMITTING and withholds the response until the replacement ends. -/
  | commitRevocationLoad (p : PortId)
  /-- REVOCATION_REPLACEMENT_START (R50). The waiting replacement of the active list starts once no admission is in progress. -/
  | revocationReplacementStart
  /-- REVOCATION_REPLACEMENT_END (R50). The loading list becomes the active list with its generation, and the Commit response completes. -/
  | revocationReplacementEnd
  /-- ABANDON_REVOCATION_LOAD (R51). On port `p`: discards an OPEN load. -/
  | abandonRevocationLoad (p : PortId)
  /-- REVOKE_SERIAL (R52). On port `p`: requests the insertion of one serial into the active list as a list change. -/
  | revokeSerial (p : PortId)
  /-- REVOKE_SERIAL_INSERTION (R52). The waiting insertion is carried out by merging, extending or adding a range, or refused with LIST_FULL. -/
  | revokeSerialInsertion
  /-- READ_USED_TOKEN (R64). On port `p`: reports the used-token entry for a serial, or answers NOT_FOUND. -/
  | readUsedToken (p : PortId)
  /-- NEXT_REFERRAL (R68). On port `p`: returns the oldest unfetched referral and marks it fetched, or answers EMPTY. -/
  | nextReferral (p : PortId)
  /-- READ_REFERRAL (R69). On port `p`: returns one open referral by id, or answers NOT_FOUND. -/
  | readReferral (p : PortId)
  /-- ANSWER_REFERRAL (R70). On port `p`: tests a back-office decision against the open referral and carries it out, or refuses it LATE. -/
  | answerReferral (p : PortId)
  /-- REFERRAL_DEADLINE (R74). The deadline of the open referral `id` is reached. -/
  | referralDeadline (id : Byte)
  /-- SET_LINK_STATE (R75). On port `p`: sets the station link state UP or DOWN. -/
  | setLinkState (p : PortId)
  /-- PLACE_RESERVATION (R80). On port `p`: tests and places a HELD reservation on a named dock or a dock chosen by kind. -/
  | placeReservation (p : PortId)
  /-- CANCEL_RESERVATION (R83). On port `p`: ends a HELD reservation CANCELLED and clears its dock's held mark. -/
  | cancelReservation (p : PortId)
  /-- READ_RESERVATIONS (R88). On port `p`: returns every reservation entry and removes the ENDED ones returned. -/
  | readReservations (p : PortId)
  /-- RESERVATION_EXPIRY (R84). A HELD reservation reaches its expiry and ends EXPIRED. -/
  | reservationExpiry
  /-- CLEAR_FAULT (R106). On port `p`: returns a FAULT dock to UNKNOWN with its picture and bike part cleared. -/
  | clearFault (p : PortId)
  /-- SET_DOCK_SERVICE (R107). On port `p`: takes a dock OUT_OF_SERVICE or brings it back IN to UNKNOWN. -/
  | setDockService (p : PortId)
  /-- READ_DOCK (R110). On port `p`: returns one dock record with the fields the port's role may see. -/
  | readDock (p : PortId)
  /-- READ_DOCK_SUMMARY (R111). On port `p`: returns the eligible counts and the counts of EMPTY, FAULT and OUT_OF_SERVICE docks. -/
  | readDockSummary (p : PortId)
  /-- READ_LINE_STATUS (R125). On port `p`: returns the dock line's link, queue and poll view of one dock. -/
  | readLineStatus (p : PortId)
  /-- SERVICE_RELEASE (R147). On port `p`: reserves a record slot and claims a dock for SERVICE. -/
  | serviceRelease (p : PortId)
  /-- READ_CHARGE (R168). On port `p`: reports the budget figures and one dock's charge record. -/
  | readCharge (p : PortId)
  /-- READ_RECORDS (R175). On port `p`: returns up to 4 trip records from a start sequence without removing them. -/
  | readRecords (p : PortId)
  /-- ACKNOWLEDGE_RECORDS (R176). On port `p`: removes records from the oldest through a given sequence, then runs the owed pass. -/
  | acknowledgeRecords (p : PortId)
  /-- SET_PARAMETER (R190). On port `p`: clamps, tests and puts one parameter in force. -/
  | setParameter (p : PortId)
  /-- READ_PARAMETER (R191). On port `p`: returns a parameter's value in force and any pending stored value. -/
  | readParameter (p : PortId)
  /-- STORE_CONFIGURATION (R192). On port `p`: starts writing the configuration image to the serial memory. -/
  | storeConfiguration (p : PortId)
  /-- STORE_CONFIGURATION_END (R192). The check of a store ends; `readBack` is the 132 bytes read back from the serial memory. -/
  | storeConfigurationEnd (readBack : List Byte)
  /-- RESTART_STATION (R196). On port `p`: completes its response and takes a station restart in the same event. -/
  | restartStation (p : PortId)
  /-- COLD_RESET (R197). Power-on or the reset input; `written` says how many bytes of a store in progress the memory had taken. -/
  | coldReset (written : Nat)
  /-- CONFIGURATION_LOAD_END (R194). The image has been read and judged; `answers` says whether the memory answered (R193). -/
  | configurationLoadEnd (answers : Bool)
  /-- COMMAND_FRAME_SENT (R113). The last byte of a command frame is sent, the pair is released and the answer window opens. -/
  | commandFrameSent
  /-- DOCK_REPORT_RECEIVED (R113, R114). Bytes of an answer arrive; the 14th byte of the answer ends the transaction. An answer
  whose bytes come at one millisecond is one command of 14 bytes; one that is spread over time comes in several (log entry 15). -/
  | dockReportReceived (bytes : List Byte)
  /-- ANSWER_WINDOW_CLOSE (R113). The answer window closes with no good answer, and the transaction is judged bad. -/
  | answerWindowClose
  /-- ANSWER_BYTE_TIMEOUT (R113). W ms pass after an answer byte before the 14th byte, and the transaction is judged bad;
  `lastByte` is the millisecond of that byte, which is the last one while no further byte has come (log entry 15). -/
  | answerByteTimeout (lastByte : Nat)
  /-- LATCH_GRANT (R132). The head of the grant queue gets a slot and budget share, LATCH_OPEN is asked and the dock enters UNLATCHING. -/
  | latchGrant
  /-- CLAIM_DEADLINE (R133). Dock `d`: a claim times out in CLAIMED; the dock returns to DOCKED and FAILED CLAIM_TIMEOUT is produced. -/
  | claimDeadline (d : DockId)
  /-- CONFIRM_DEADLINE (R135). Dock `d`: a confirm deadline repeats the latch attempt or, with the retries exhausted, jams the dock. -/
  | confirmDeadline (d : DockId)
  /-- PICKUP_DEADLINE (R139). Dock `d`: the pickup window expires; LATCH_CLOSE is asked and the dock enters RELOCK. -/
  | pickupDeadline (d : DockId)
  /-- RELOCK_DEADLINE (R140). Dock `d`: the relock deadline of a claimed dock gives JAM_OPEN or DOCKED with NOT_TAKEN. -/
  | relockDeadline (d : DockId)
  /-- UNOWNED_RELOCK_DEADLINE (R142). Dock `d`: the relock deadline of an unowned relock gives FAULT JAM_OPEN or DOCKED. -/
  | unownedRelockDeadline (d : DockId)
  /-- STALE_DEADLINE (R146). Dock `d`: the stale limit passes with the link LOST, and the release is resolved as taken with UNOBSERVED. -/
  | staleDeadline (d : DockId)
  /-- CHARGE_OFFER (R156). Dock `d`: an IDLE contract's offer time is reached and CHARGE_CAPS is sent. -/
  | chargeOffer (d : DockId)
  /-- CHARGE_ANSWER_DEADLINE (R157). Dock `d`: no request came by the answer deadline; the contract returns to IDLE an offer interval ahead. -/
  | chargeAnswerDeadline (d : DockId)
  /-- BYTES_AFTER_STATED_LENGTH (R182). Bytes shifted in after a request frame's stated length, within the same select period, are ignored, and FRAME_LONG is counted in the port error record. -/
  | bytesAfterStatedLength (p : PortId)
  deriving DecidableEq, Repr

end Sys2Proof
end

