-- ==== Sys2Proof/Config.lean ====
section
/-! DEFINITION. What the part fixes: capacities of its collections, and limits of its counters.
The spec leaves no value undefined, so there is no free value here (log entry 31). -/

namespace Sys2Proof.Config

/-- Live presentations (R3). -/
def maxEntries : Nat := 16
/-- Unread results plus owed results (R5, R20). -/
def maxResults : Nat := 48
/-- Result units owed to a presentation at acceptance (R6). -/
def unitsOwed : Nat := 3
/-- Used-token entries (R55). -/
def maxUsed : Nat := 96
/-- Ranges of the active revocation list (R46). -/
def maxRanges : Nat := 1024
/-- Open referrals (R65). -/
def maxReferrals : Nat := 8
/-- Reservation entries, HELD and ENDED (R78). -/
def maxReservations : Nat := 16
/-- Records in the queue plus reserved slots (R169). -/
def maxRecords : Nat := 128
/-- Occupied plus reserved below this passes the slot test (R171). -/
def slotLimit : Nat := 112
/-- Occupied reaching this raises RECORDS_NEAR_FULL (R177). -/
def nearFull : Nat := 96
/-- Outstanding requests of a port (R180). -/
def maxOutstanding : Nat := 2
/-- Largest 32-bit quantity: uptime and station time hold at it (R25, R26). -/
def max32 : Nat := 4294967295
/-- The millisecond count at which uptime holds (R25). -/
def maxMs : Nat := max32 * 1000
/-- Largest well-formed issue minute (R1). -/
def maxIssueMinute : Nat := 71582788
/-- Bytes of a dock report (12.6). -/
def reportLength : Nat := 14
/-- Bytes of the configuration image (12.7). -/
def imageLength : Nat := 132
/-- This part's format number (12.7). -/
def formatNumber : Nat := 0x2A01
/-- State of charge below which a FULL contract starts again (R160). -/
def fullBelow : Nat := 95

end Sys2Proof.Config
end

