-- ==== Sys2Proof/Machine/State.lean ====
section
/-! DEFINITION. The state of the part, block by block as 00_scope.md lists what each block owns, as plain data, and the
state after a cold reset. What one definition can compute from it (BUSY, ATTN, the lamp codes, the eligible counts, the
headroom, the owed-result count, the free slots) is not stored (log entry 34). -/

namespace Sys2Proof.Machine

/-! ## Tokens (chapter 1, 12.4) -/

/-- Rider class (1.1). -/
inductive RiderClass where
  | standard | electricPermitted | staff
  deriving DecidableEq, Repr

/-- Wanted kind (1.1). -/
inductive WantedKind where
  | any | standard | electric
  deriving DecidableEq, Repr

/-- Kind of a bike (6.1). -/
inductive BikeKind where
  | standard | electric
  deriving DecidableEq, Repr

/-- A token as received (12.4): the class, kind and flags bytes are kept as they came, since the check word covers
them as received. -/
structure Token where
  serial : Nat
  generation : Byte
  rider : Byte
  wanted : Byte
  flags : Byte
  issueMinute : Nat
  validity : Nat
  reservation : Nat
  check : BitVec 32
  deriving DecidableEq, Repr

/-- The token summary that an entry keeps after admission (1.2, R6); a class or kind code outside its list is `none`. -/
structure Summary where
  serial : Nat
  rider : Option RiderClass
  wanted : Option WantedKind
  reservation : Nat
  validity : Nat
  deriving DecidableEq, Repr

/-- Stage of a presentation (R4). -/
inductive Stage where
  | queued | checking | referred | releasing
  deriving DecidableEq, Repr

/-- Reasons of results and referrals (12.5). -/
inductive Reason where
  | malformed | check | revoked | inUse | alreadyUsed | notYet | expired | reservationMismatch | noBike | tableFull
  | recordsFull | offline | referralFull | denied | timedOut | claimTimeout | jammed | linkLost
  | keyUnknown | clockUnsynced | reservationUnknown | notOffline | noCredit
  deriving DecidableEq, Repr

/-- Outcome of a FINAL result (1.6). -/
inductive ResultOutcome where
  | taken | notTaken | refused | failed
  deriving DecidableEq, Repr

/-- Kind of a result (1.6). -/
inductive ResultKind where
  | referred | directed | final
  deriving DecidableEq, Repr

/-- A result (1.6, R19). -/
structure Result where
  tag : Byte
  kind : ResultKind
  outcome : Option ResultOutcome
  reason : Option Reason
  dock : Option DockId
  bike : Option Nat
  late : Bool
  unobserved : Bool
  deriving DecidableEq, Repr

/-- An entry of the presentation table (1.2); `token` is the whole token, kept until admission ends (R6). -/
structure Entry where
  tag : Byte
  summary : Summary
  token : Option Token
  stage : Stage
  dock : Option DockId
  alternateUsed : Bool
  reserved : Bool
  creditCharged : Nat
  slotReserved : Bool
  referral : Option Byte
  offline : Bool
  owed : Nat
  deriving DecidableEq, Repr

/-- A key slot (3.1). -/
structure KeySlot where
  present : Bool
  generation : Byte
  key : List Byte
  deriving DecidableEq, Repr

/-- The empty slot: generation and key cleared to 0 (R41). -/
def KeySlot.empty : KeySlot := ⟨false, 0, List.replicate 8 0⟩

/-- The admission in progress and the four inputs it holds (R8). -/
structure Admission where
  tag : Byte
  time : Nat
  grace : Nat
  synced : Bool
  current : KeySlot
  next : KeySlot
  deriving DecidableEq, Repr

/-- What the Presentation Unit owns. -/
structure Presentations where
  entries : List Entry
  results : List Result
  admission : Option Admission
  deriving DecidableEq, Repr

/-! ## Token Store (chapter 3) -/

/-- A range of serials (R46). -/
structure SerialRange where
  low : Nat
  high : Nat
  deriving DecidableEq, Repr

/-- The loading list with what Begin Revocation Load announced (R48). -/
structure LoadingList where
  generation : Byte
  announced : Nat
  ranges : List SerialRange
  deriving DecidableEq, Repr

/-- The load state (3.2.2). -/
inductive LoadState where
  | none
  | opened (l : LoadingList)
  | committing (l : LoadingList)
  deriving DecidableEq, Repr

/-- A list change taken and not yet ended, with the port whose response waits for it (R50, R52, R53). -/
inductive ListChange where
  | replacement (p : PortId)
  | insertion (p : PortId) (serial : Nat)
  deriving DecidableEq, Repr

/-- The state of a used-token entry with the fields of that state (3.3). -/
inductive UsedState where
  | tentative (owner : Byte) (credit : Nat)
  | final (bike : Option Nat) (dock : DockId) (removal : Nat) (offline : Bool) (cost : Nat)
  deriving DecidableEq, Repr

/-- A used-token entry (3.3). -/
structure UsedEntry where
  serial : Nat
  expiry : Nat
  state : UsedState
  deriving DecidableEq, Repr

/-- What the Token Store owns. -/
structure TokenStore where
  current : KeySlot
  next : KeySlot
  active : List SerialRange
  activeGen : Byte
  load : LoadState
  changes : List ListChange
  replacing : Bool
  used : List UsedEntry
  deriving DecidableEq, Repr

/-! ## Clock and Credit Unit (chapter 2) -/

/-- The sync condition (R27). -/
inductive SyncCondition where
  | never | current | lapsed
  deriving DecidableEq, Repr

/-- What the Clock and Credit Unit owns; `refillsDue` is the model's own count of minute boundaries whose refill step
has not been taken (log entry 27). -/
structure Clock where
  ms : Nat
  stationTime : Nat
  synced : Bool
  lastSync : Nat
  sync : SyncCondition
  credit : Nat
  refillsDue : Nat
  deriving DecidableEq, Repr

/-! ## Referral Table and Reservation Table (chapters 4, 5) -/

/-- An open referral (4.2); the deadline is in ms of uptime. -/
structure Referral where
  id : Byte
  tag : Byte
  token : Token
  reason : Reason
  fetched : Bool
  deadline : Nat
  deriving DecidableEq, Repr

/-- The station link state (R75). -/
inductive StationLink where
  | up | down
  deriving DecidableEq, Repr

/-- What the Referral Table owns. -/
structure Referrals where
  opened : List Referral
  lastIssued : Byte
  link : StationLink
  deriving DecidableEq, Repr

/-- Why a reservation ended (5.1). -/
inductive EndReason where
  | used | expired | cancelled | lost
  deriving DecidableEq, Repr

/-- A reservation entry (5.1): HELD while `ended` is `none`, else ENDED with that reason. -/
structure Reservation where
  code : Nat
  dock : DockId
  kind : BikeKind
  expiry : Nat
  ended : Option EndReason
  moved : Nat
  deriving DecidableEq, Repr

/-! ## Trip records (chapter 10) -/

/-- Kind of a trip record (10.1). -/
inductive RecordKind where
  | release | serviceRelease | bikeReturn | anomaly
  deriving DecidableEq, Repr

/-- A trip record without its sequence (10.1); an ANOMALY's one cause is UNOBSERVED_REMOVAL. -/
structure TripRecord where
  kind : RecordKind
  dock : DockId
  bike : Option Nat
  serial : Option Nat
  uptime : Nat
  station : Option Nat
  offline : Bool
  late : Bool
  unobserved : Bool
  bounce : Bool
  found : Bool
  deriving DecidableEq, Repr

/-- A record in the queue, with the sequence it received when it was written (R170). -/
structure QueuedRecord where
  seq : Nat
  record : TripRecord
  deriving DecidableEq, Repr

/-- What the Record Queue owns (10.2). -/
structure Records where
  records : List QueuedRecord
  reserved : Nat
  lost : Nat
  nextSeq : Nat
  deriving DecidableEq, Repr

/-! ## Dock Table (chapter 6) -/

/-- A dock's state (6.1). -/
inductive DockState where
  | unknown | empty | arriving | docked | claimed | unlatching | pickup | relock | fault | outOfService
  deriving DecidableEq, Repr

/-- A fault cause (6.1). -/
inductive FaultCause where
  | jam | jamOpen | short | misseated | tagConflict | tagMismatch | latchForced
  deriving DecidableEq, Repr

/-- A contact code (6.2). -/
inductive ContactCode where
  | noBike | standardBike | electricBike | misseated | short
  deriving DecidableEq, Repr

/-- A tag status, with the bike number when it is OK (6.2). -/
inductive TagStatus where
  | none
  | ok (number : Nat)
  | conflict
  deriving DecidableEq, Repr

/-- A dock's contents as one report or the picture gives them (6.1). -/
structure Contents where
  code : ContactCode
  tag : TagStatus
  deriving DecidableEq, Repr

/-- Latch position (6.1). -/
inductive LatchPosition where
  | closed | opened
  deriving DecidableEq, Repr

/-- The bike part of a dock record (6.1). -/
structure Bike where
  kind : BikeKind
  number : Option Nat
  since : Nat
  sinceStation : Option Nat
  soc : Option Nat
  deriving DecidableEq, Repr

/-- A claim owner (6.1). -/
inductive Owner where
  | tag (t : Byte)
  | service
  deriving DecidableEq, Repr

/-- A dock record (6.1). The link state is the Dock Line Controller's and the lamp code is derived. -/
structure Dock where
  state : DockState
  faultCause : Option FaultCause
  picture : Option Contents
  candidate : Option Contents
  count : Nat
  latch : Option LatchPosition
  applied : Option Level
  bike : Option Bike
  owner : Option Owner
  heldBy : Option Nat
  deadline : Option Nat
  attempts : Nat
  lastSerial : Option Nat
  interrupted : Bool
  alarm : Bool
  owed : Option TripRecord
  deriving DecidableEq, Repr

/-- A dock record after a cold reset (R89). -/
def Dock.reset : Dock :=
  { state := .unknown, faultCause := none, picture := none, candidate := none, count := 0, latch := none,
    applied := none, bike := none, owner := none, heldBy := none, deadline := none, attempts := 0,
    lastSerial := none, interrupted := false, alarm := false, owed := none }

/-! ## Dock Line Controller (chapter 7) -/

/-- Link state of a dock (7.4). -/
inductive LinkState where
  | unlinked | linked | lost
  deriving DecidableEq, Repr

/-- A dock's link and its two run counters (7.4). -/
structure Link where
  state : LinkState
  good : Nat
  bad : Nat
  deriving DecidableEq, Repr

/-- A link after either reset (R126). -/
def Link.reset : Link := ⟨.unlinked, 0, 0⟩

/-- A command to a dock module (7.2). -/
inductive LineCommand where
  | poll | latchOpen | latchClose | caps
  | accept (l : Level)
  | wait | reject
  | trim (l : Level)
  | restore (l : Level)
  | stop
  deriving DecidableEq, Repr

/-- The class of a command, which names its queue (7.2). -/
inductive CommandClass where
  | latch | charge
  deriving DecidableEq, Repr

/-- A pending command (7.2). -/
structure LineEntry where
  dock : DockId
  command : LineCommand
  resendWait : Bool
  deriving DecidableEq, Repr

/-- Where a transaction stands (R113): its frame is being sent; its answer window opened at a millisecond and no byte of an
answer has come; or an answer has begun within the window, with the bytes that have come and the millisecond of the last. -/
inductive LinePhase where
  | sending
  | window (openedAt : Nat)
  | answering (bytes : List Byte) (lastAt : Nat)
  deriving DecidableEq, Repr

/-- The transaction in progress (R113): the dock addressed, the command in flight, the place in its queue to which the
command would return (R119), whether a withdrawal is held against it (R118), the frame formed at its grant and the
length of its answer window. -/
structure Transaction where
  dock : DockId
  command : LineCommand
  place : Nat
  withdrawn : Bool
  frame : List Byte
  window : Nat
  phase : LinePhase
  deriving DecidableEq, Repr

/-- What the Dock Line Controller owns. -/
structure Line where
  links : Vector Link 64
  latchQ : List LineEntry
  chargeQ : List LineEntry
  txn : Option Transaction
  ptr : DockId
  deriving DecidableEq, Repr

/-- The dock line after either reset (R126). -/
def Line.reset : Line := ⟨Vector.replicate 64 Link.reset, [], [], none, 0⟩

/-! ## Release Controller (chapter 8) -/

/-- The stage in which the link was first lost during a claim (R145). -/
inductive StaleStage where
  | pickup | relock
  deriving DecidableEq, Repr

/-- A noted fault: its cause and the contents that raised it (R141). -/
structure NotedFault where
  cause : FaultCause
  contents : Contents
  deriving DecidableEq, Repr

/-- A dock's release state (chapter 8, opening table). -/
structure ReleaseState where
  ready : Bool
  pulse : Bool
  noted : Option NotedFault
  stale : Option StaleStage
  relinked : Bool
  deriving DecidableEq, Repr

/-- A release state at its creation: ready, pulse and relinked no, the rest absent (R130, R142). -/
def ReleaseState.fresh : ReleaseState := ⟨false, false, none, none, false⟩

/-- What the Release Controller owns. -/
structure Releases where
  grantQ : List DockId
  pulses : Nat
  states : Vector (Option ReleaseState) 64
  deriving DecidableEq, Repr

/-- The Release Controller after either reset (R150). -/
def Releases.reset : Releases := ⟨[], 0, Vector.replicate 64 none⟩

/-! ## Charge Controller (chapter 9) -/

/-- A contract's state (9.1). -/
inductive ContractState where
  | idle | offered | waiting | active | trimmed | stopping | full
  deriving DecidableEq, Repr

/-- A battery's charge message (6.2, 9.1). -/
inductive ChargeMessage where
  | none
  | request (l : Level)
  | full
  deriving DecidableEq, Repr

/-- A dock's charge record (9.1). -/
structure Charge where
  contract : Option ContractState
  granted : Option Level
  counted : Nat
  requested : Option Level
  lastMessage : Option ChargeMessage
  offerTime : Option Nat
  capsDelivered : Bool
  answerDeadline : Option Nat
  stopOutstanding : Bool
  held : Bool
  deriving DecidableEq, Repr

/-- A charge record after a cold reset (R167). -/
def Charge.reset : Charge := ⟨none, none, 0, none, none, none, false, none, false, false⟩

/-! ## Ports (chapter 11) -/

/-- The role of a port (11.3). -/
inductive Role where
  | rider | operator
  deriving DecidableEq, Repr

/-- A status code (12.2). -/
inductive Status where
  | done | empty | notFound | none | unknownRequest | badLength | role | notReady | outOfRange | state
  | tagInUse | presentationsFull | resultsFull | late | codeInUse | tableFull | dockBusy | noBike | recordsFull
  | incomplete | order | count | listFull | verifyFailed
  deriving DecidableEq, Repr

/-- A response frame before it is laid out: status and payload (11.1). -/
structure Response where
  status : Status
  payload : List Byte
  deriving DecidableEq, Repr

/-- A request as its frame carried it (11.1). -/
structure Request where
  code : Byte
  payload : List Byte
  deriving DecidableEq, Repr

/-- Where an outstanding request stands (R180). -/
inductive Progress where
  | waiting
  | executing
  | complete (r : Response)
  deriving DecidableEq, Repr

/-- An outstanding request (R180). -/
structure Outstanding where
  request : Request
  progress : Progress
  deriving DecidableEq, Repr

/-- A port error (R182). -/
inductive PortError where
  | frameShort | frameLong | portFull
  deriving DecidableEq, Repr

/-- An event kind (11.5). -/
inductive EventKind where
  | stationRestarted | resultReady | availabilityChanged | configInvalid
  | referralWaiting | dockFault | recordsNearFull | recordsWaiting | reservationChanged | clockUnsynced
  deriving DecidableEq, Repr

/-- One flag for each event kind. -/
structure EventFlags where
  stationRestarted : Bool
  resultReady : Bool
  availabilityChanged : Bool
  configInvalid : Bool
  referralWaiting : Bool
  dockFault : Bool
  recordsNearFull : Bool
  recordsWaiting : Bool
  reservationChanged : Bool
  clockUnsynced : Bool
  deriving DecidableEq, Repr

/-- No flag set. -/
def EventFlags.none : EventFlags := ⟨false, false, false, false, false, false, false, false, false, false⟩

/-- STATION_RESTARTED alone (R188). -/
def EventFlags.restarted : EventFlags := { EventFlags.none with stationRestarted := true }

/-- Where a port's select period stands (R179, R182, R197; log entry 16): none open; the request code received and the
frame not ended; the frame ended; extra bytes seen after it; the empty frame; the request frame lost at a reset. -/
inductive SelectPhase where
  | idle
  | receiving (code : Byte)
  | ended
  | overrun
  | emptyFrame
  | lost
  deriving DecidableEq, Repr

/-- What a Port Unit owns. -/
structure Port where
  role : Option Role
  outstanding : List Outstanding
  errorCount : Nat
  lastError : Option PortError
  pending : EventFlags
  enabled : EventFlags
  select : SelectPhase
  dataOut : List Byte
  deriving DecidableEq, Repr

/-- A port after power-on (R182, R188, R197). -/
def Port.reset : Port :=
  { role := none, outstanding := [], errorCount := 0, lastError := none, pending := EventFlags.restarted,
    enabled := EventFlags.restarted, select := .idle, dataOut := [] }

/-! ## Configuration Loader (11.6, 11.7, 12.7) -/

/-- The parameters, each in the unit of the table of 11.6 (R189); `portARole` stands for the port roles. -/
structure Params where
  portARole : Role
  dockCount : Nat
  answerWindow : Nat
  mUp : Nat
  mDown : Nat
  pConf : Nat
  pGone : Nat
  releaseThreshold : Nat
  latchConfirm : Nat
  latchRetries : Nat
  claimTimeout : Nat
  pickupWindow : Nat
  relockTime : Nat
  staleLimit : Nat
  bounceWindow : Nat
  referralTimeout : Nat
  gBase : Nat
  gMax : Nat
  drift : Nat
  syncLifetime : Nat
  cCap : Nat
  refill : Nat
  bTotal : Nat
  pLatch : Nat
  lSlots : Nat
  level0 : Nat
  level1 : Nat
  level2 : Nat
  level3 : Nat
  chargeAnswer : Nat
  offerInterval : Nat
  deriving DecidableEq, Repr

/-- The defaults of the table of 11.6 (R189). -/
def Params.default : Params :=
  { portARole := .rider, dockCount := 64, answerWindow := 5, mUp := 2, mDown := 4, pConf := 3, pGone := 2,
    releaseThreshold := 30, latchConfirm := 1500, latchRetries := 1, claimTimeout := 10, pickupWindow := 30,
    relockTime := 3, staleLimit := 120, bounceWindow := 90, referralTimeout := 6, gBase := 30, gMax := 600,
    drift := 100, syncLifetime := 604800, cCap := 8, refill := 4, bTotal := 1500, pLatch := 90, lSlots := 2,
    level0 := 40, level1 := 80, level2 := 160, level3 := 240, chargeAnswer := 2000, offerInterval := 30 }

/-- A Store Configuration being written: the port whose response waits, the image, and the role and dock count in it
(R191, R192). -/
structure StoreJob where
  port : PortId
  image : List Byte
  role : Role
  dockCount : Nat
  deriving DecidableEq, Repr

/-- What the Configuration Loader owns, and the external serial memory at its SPI port as a canonical list of cells
(log entry 8). -/
structure Loader where
  params : Params
  ready : Bool
  valid : Bool
  identity : Nat
  storedRole : Option Role
  storedCount : Option Nat
  store : Option StoreJob
  serial : List Host.Cell
  deriving DecidableEq, Repr

/-! ## The whole state -/

structure State where
  clock : Clock
  cfg : Loader
  portA : Port
  portB : Port
  pres : Presentations
  tokens : TokenStore
  refs : Referrals
  resv : List Reservation
  docks : Vector Dock 64
  line : Line
  rel : Releases
  charge : Vector Charge 64
  recs : Records
  pending : List Instr
  deriving DecidableEq, Repr

/-- The faults of the machine: none. No rule of the spec stops the part, so no meaning raises one (log entry 1); safe. -/
inductive Fault where
  deriving DecidableEq, Repr

/-- The refusals of the machine. -/
inductive Refusal where
  /-- Raised by `exec` alone, for a row that has no meaning yet; safe. No row is left without one. -/
  | notModelled (mnemonic : String)
  deriving DecidableEq, Repr

/-- The state right after a cold reset at power-on (R197): every block at its cold-reset value, READY low and the
configuration load running; the serial memory lists nothing and no command waits. -/
def State.reset : State :=
  { clock := { ms := 0, stationTime := 0, synced := false, lastSync := 0, sync := .never, credit := 0, refillsDue := 0 }
    cfg := { params := Params.default, ready := false, valid := false, identity := 0, storedRole := none,
             storedCount := none, store := none, serial := [] }
    portA := Port.reset
    portB := Port.reset
    pres := { entries := [], results := [], admission := none }
    tokens := { current := KeySlot.empty, next := KeySlot.empty, active := [], activeGen := 0, load := .none,
                changes := [], replacing := false, used := [] }
    refs := { opened := [], lastIssued := 255, link := .down }
    resv := []
    docks := Vector.replicate 64 Dock.reset
    line := Line.reset
    rel := Releases.reset
    charge := Vector.replicate 64 Charge.reset
    recs := { records := [], reserved := 0, lost := 0, nextSeq := 0 }
    pending := [] }

end Sys2Proof.Machine
end

