-- ==== Sys2Proof/Machine/Operands.lean ====
section
/-! DEFINITION. Fields, frames and codes of chapter 12, read and written byte by byte, and the two checks (the CRC-32
of R45, the CRC-16 of R115). Numbers are most significant byte first. -/

namespace Sys2Proof.Machine

/-! ## Numbers -/

/-- The number that bytes carry, most significant first (chapter 12, opening). -/
def beVal (bs : List Byte) : Nat := bs.foldl (fun n b => n * 256 + b.toNat) 0

/-- A number in one byte. -/
def be8 (n : Nat) : List Byte := [BitVec.ofNat 8 n]

/-- A number in two bytes. -/
def be16 (n : Nat) : List Byte := [BitVec.ofNat 8 (n / 256), BitVec.ofNat 8 n]

/-- A number in three bytes. -/
def be24 (n : Nat) : List Byte := [BitVec.ofNat 8 (n / 65536), BitVec.ofNat 8 (n / 256), BitVec.ofNat 8 n]

/-- A number in four bytes. -/
def be32 (n : Nat) : List Byte :=
  [BitVec.ofNat 8 (n / 16777216), BitVec.ofNat 8 (n / 65536), BitVec.ofNat 8 (n / 256), BitVec.ofNat 8 n]

/-- A signed number in two bytes, two's complement (headroom H, R198). -/
def beInt16 (i : Int) : List Byte := be16 (BitVec.ofInt 16 i).toNat

/-- The `width` bytes of a frame from `offset`. -/
def field (bs : List Byte) (offset width : Nat) : List Byte := (bs.drop offset).take width

/-- The number in the `width` bytes from `offset`. -/
def fieldVal (bs : List Byte) (offset width : Nat) : Nat := beVal (field bs offset width)

/-- The byte at an offset of a frame; a payload that passed its length test holds it. -/
def byteAt (bs : List Byte) (offset : Nat) : Byte := bs.getD offset 0

/-- Yes or no: 0 no, 1 yes (R198). -/
def yesNo (b : Bool) : List Byte := [if b then 1 else 0]

/-- A field preceded by its presence byte, sent as 0 when absent (R198); `absent` is the zero field. -/
def present {α : Type} (enc : α → List Byte) (absent : List Byte) : Option α → List Byte
  | some a => 1 :: enc a
  | none => 0 :: absent

/-! ## Checks -/

/-- One bit of the CRC-32 of R45, least significant bit first. -/
def crc32Bit (r : BitVec 32) (b : Bool) : BitVec 32 :=
  if (r.getLsbD 0).xor b then (r >>> 1) ^^^ 0xEDB88320#32 else r >>> 1

/-- The CRC-32 of R45: remainder all ones, bytes least significant bit first, inverted at the end. -/
def crc32 (bs : List Byte) : BitVec 32 :=
  ~~~ (bs.foldl (fun r b => (List.range 8).foldl (fun r k => crc32Bit r (b.getLsbD k)) r) 0xFFFFFFFF#32)

/-- One bit of the CRC-16 of R115, most significant bit first. -/
def crc16Bit (r : BitVec 16) (b : Bool) : BitVec 16 :=
  if (r.getLsbD 15).xor b then (r <<< 1) ^^^ 0x1021#16 else r <<< 1

/-- The CRC-16 of R115: remainder all ones, bytes most significant bit first, not inverted. -/
def crc16 (bs : List Byte) : BitVec 16 :=
  bs.foldl (fun r b => (List.range 8).foldl (fun r k => crc16Bit r (b.getLsbD (7 - k))) r) 0xFFFF#16

/-- A frame followed by its frame check, most significant byte first (12.6, 12.7). -/
def withCrc16 (bs : List Byte) : List Byte := bs ++ be16 (crc16 bs).toNat

/-- The frame check of a frame whose last two bytes are its check (R115). -/
def crc16Ok (bs : List Byte) : Bool :=
  decide (2 ≤ bs.length ∧ (crc16 (bs.take (bs.length - 2))).toNat = beVal (bs.drop (bs.length - 2)))

/-! ## Codes (12.8 and the tables of chapter 12) -/

def Status.code : Status → Byte
  | .done => 0x01 | .empty => 0x02 | .notFound => 0x03 | .none => 0x04
  | .unknownRequest => 0x10 | .badLength => 0x11 | .role => 0x12 | .notReady => 0x13 | .outOfRange => 0x14 | .state => 0x15
  | .tagInUse => 0x20 | .presentationsFull => 0x21 | .resultsFull => 0x22 | .late => 0x23 | .codeInUse => 0x24
  | .tableFull => 0x25 | .dockBusy => 0x26 | .noBike => 0x27 | .recordsFull => 0x28 | .incomplete => 0x29
  | .order => 0x2A | .count => 0x2B | .listFull => 0x2C | .verifyFailed => 0x2D

def Reason.code : Reason → Byte
  | .malformed => 0x01 | .check => 0x02 | .revoked => 0x03 | .inUse => 0x04 | .alreadyUsed => 0x05 | .notYet => 0x06
  | .expired => 0x07 | .reservationMismatch => 0x08 | .noBike => 0x09 | .tableFull => 0x0A | .recordsFull => 0x0B
  | .offline => 0x0C | .referralFull => 0x0D | .denied => 0x0E | .timedOut => 0x0F | .claimTimeout => 0x10
  | .jammed => 0x11 | .linkLost => 0x12 | .keyUnknown => 0x20 | .clockUnsynced => 0x21 | .reservationUnknown => 0x22
  | .notOffline => 0x23 | .noCredit => 0x24

def ResultKind.code : ResultKind → Byte
  | .referred => 1 | .directed => 2 | .final => 3

def ResultOutcome.code : ResultOutcome → Byte
  | .taken => 1 | .notTaken => 2 | .refused => 3 | .failed => 4

def BikeKind.code : BikeKind → Byte
  | .standard => 1 | .electric => 2

def DockState.code : DockState → Byte
  | .unknown => 1 | .empty => 2 | .arriving => 3 | .docked => 4 | .claimed => 5 | .unlatching => 6 | .pickup => 7
  | .relock => 8 | .fault => 9 | .outOfService => 10

def FaultCause.code : FaultCause → Byte
  | .jam => 1 | .jamOpen => 2 | .short => 3 | .misseated => 4 | .tagConflict => 5 | .tagMismatch => 6 | .latchForced => 7

def ContactCode.code : ContactCode → Byte
  | .noBike => 1 | .standardBike => 2 | .electricBike => 3 | .misseated => 4 | .short => 5

def LinkState.code : LinkState → Byte
  | .unlinked => 1 | .linked => 2 | .lost => 3

def StationLink.code : StationLink → Byte
  | .up => 1 | .down => 2

def LatchPosition.code : LatchPosition → Byte
  | .closed => 1 | .opened => 2

def RecordKind.code : RecordKind → Byte
  | .release => 1 | .serviceRelease => 2 | .bikeReturn => 3 | .anomaly => 4

def ContractState.code : ContractState → Byte
  | .idle => 1 | .offered => 2 | .waiting => 3 | .active => 4 | .trimmed => 5 | .stopping => 6 | .full => 7

def SyncCondition.code : SyncCondition → Byte
  | .never => 1 | .current => 2 | .lapsed => 3

def LoadState.code : LoadState → Byte
  | .none => 1 | .opened _ => 2 | .committing _ => 3

def EndReason.code : EndReason → Byte
  | .used => 1 | .expired => 2 | .cancelled => 3 | .lost => 4

def PortError.code : PortError → Byte
  | .frameShort => 1 | .frameLong => 2 | .portFull => 3

def Role.code : Role → Byte
  | .rider => 1 | .operator => 2

/-- The command kinds of 12.6. -/
def LineCommand.code : LineCommand → Byte
  | .poll => 1 | .latchOpen => 2 | .latchClose => 3 | .caps => 4 | .accept _ => 5 | .wait => 6 | .reject => 7
  | .trim _ => 8 | .restore _ => 9 | .stop => 10

/-- The level a charge command carries (7.2). -/
def LineCommand.level : LineCommand → Option Level
  | .accept l | .trim l | .restore l => some l
  | _ => none

/-- The class of a command; POLL has none (7.2). -/
def LineCommand.cls : LineCommand → Option CommandClass
  | .poll => none
  | .latchOpen | .latchClose => some .latch
  | _ => some .charge

/-- CHARGE_STOP or CHARGE_TRIM, the commands that no message may replace (R152). -/
def LineCommand.lowers : LineCommand → Bool
  | .stop | .trim _ => true
  | _ => false

/-- A named code of an optional field: 0 shows it absent (R198). -/
def optCode {α : Type} (code : α → Byte) : Option α → List Byte
  | some a => [code a]
  | none => [0]

/-- A dock number; 0 is absent (R198). -/
def optDock : Option DockId → List Byte
  | some d => be8 (dockNumber d)
  | none => [0]

/-- A serial or a reservation code; 0 is absent (R198). -/
def optSerial : Option Nat → List Byte
  | some n => be32 n
  | none => be32 0

/-- A charge level; FF hex is NONE or absent (R198). -/
def optLevel : Option Level → List Byte
  | some l => be8 l.val
  | none => [0xFF]

/-- A state of charge; FF hex is absent (R198). -/
def optSoc : Option Nat → List Byte
  | some n => be8 n
  | none => [0xFF]

/-- Milliseconds remaining; absent is FFFFFFFF hex (R198). -/
def optMs : Option Nat → List Byte
  | some n => be32 n
  | none => be32 0xFFFFFFFF

/-- A sequence, whose absence a presence byte shows (R198). -/
def optSeq (s : Option Nat) : List Byte := present be16 (be16 0) s

/-- A bike number in a response payload, whose absence a presence byte shows (R198). -/
def optBike (n : Option Nat) : List Byte := present be24 (be24 0) n

/-- The dock of a dock number 1..64; none for any other number. -/
def dockOfNumber? (n : Nat) : Option DockId :=
  if h : 1 ≤ n ∧ n ≤ 64 then some ⟨n - 1, by omega⟩ else none

/-- Bike kind of its code (12.8). -/
def bikeKindOf? (c : Byte) : Option BikeKind :=
  if c = 1 then some .standard else if c = 2 then some .electric else none

/-- Role of its code (12.8). -/
def roleOf? (c : Byte) : Option Role :=
  if c = 1 then some .rider else if c = 2 then some .operator else none

/-! ## Ports (12.2) -/

/-- The bytes of a response frame (12.2). -/
def Response.bytes (r : Response) : List Byte := r.status.code :: be16 r.payload.length ++ r.payload

/-- The PENDING marker with the number of outstanding requests (12.2). -/
def pendingMarker (n : Nat) : List Byte := 0x80 :: be8 n

/-! ## Token (12.4) -/

def riderClass? (c : Byte) : Option RiderClass :=
  if c = 1 then some .standard else if c = 2 then some .electricPermitted else if c = 3 then some .staff else none

def wantedKind? (c : Byte) : Option WantedKind :=
  if c = 0 then some .any else if c = 1 then some .standard else if c = 2 then some .electric else none

/-- The token in 24 bytes (12.4). -/
def tokenOfBytes (bs : List Byte) : Token :=
  { serial := fieldVal bs 0 4, generation := byteAt bs 4, rider := byteAt bs 5, wanted := byteAt bs 6,
    flags := byteAt bs 7, issueMinute := fieldVal bs 8 4, validity := fieldVal bs 12 4,
    reservation := fieldVal bs 16 4, check := BitVec.ofNat 32 (fieldVal bs 20 4) }

/-- Bytes 0 to 19 of a token, over which the check word is computed (12.4, R45). -/
def Token.signedBytes (t : Token) : List Byte :=
  be32 t.serial ++ [t.generation, t.rider, t.wanted, t.flags] ++ be32 t.issueMinute ++ be32 t.validity ++ be32 t.reservation

/-- The 24 bytes of a token that the part sends (12.4): bits 1 to 7 of the token flags, which the layout does not name, are
sent as 0 (R198), and the check word is sent as received. -/
def Token.bytes (t : Token) : List Byte := { t with flags := t.flags &&& 1 }.signedBytes ++ be32 t.check.toNat

/-- The offline allowed flag, bit 0 of the token flags (12.4). -/
def Token.offlineAllowed (t : Token) : Bool := t.flags.getLsbD 0

/-- R1: a token is malformed when a field lies outside its range, or for the pair STANDARD and ELECTRIC. -/
def Token.malformed (t : Token) : Bool :=
  decide (t.serial = 0) || (riderClass? t.rider).isNone || (wantedKind? t.wanted).isNone
    || decide (Config.maxIssueMinute < t.issueMinute) || decide (t.validity = 0) || decide (240 < t.validity)
    || (decide (riderClass? t.rider = some .standard) && decide (wantedKind? t.wanted = some .electric))

/-- The token summary copied into an entry (R6). -/
def Token.summary (t : Token) : Summary :=
  { serial := t.serial, rider := riderClass? t.rider, wanted := wantedKind? t.wanted, reservation := t.reservation,
    validity := t.validity }

/-- The check word over a key and a token (R45). -/
def checkWord (key : List Byte) (t : Token) : BitVec 32 := crc32 (key ++ t.signedBytes)

/-! ## Result and trip record (12.5) -/

/-- One byte of bits, bit 0 first. -/
def bits (bs : List Bool) : Byte := bs.foldr (fun b r => (r <<< 1) ||| (if b then 1#8 else 0#8)) 0#8

/-- The 9 bytes of a result (12.5). -/
def Result.bytes (r : Result) : List Byte :=
  [r.tag, r.kind.code] ++ optCode ResultOutcome.code r.outcome ++ optCode Reason.code r.reason ++ optDock r.dock
    ++ be24 (r.bike.getD 0)
    ++ [bits [r.late, r.unobserved, false, false, false, false, false, r.bike.isSome]]

/-- The 21 bytes of a trip record (12.5). -/
def QueuedRecord.bytes (q : QueuedRecord) : List Byte :=
  let r := q.record
  be16 q.seq ++ [r.kind.code, if r.kind = .anomaly then 1 else 0] ++ be8 (dockNumber r.dock)
    ++ [bits [r.offline, r.late, r.unobserved, r.bounce, r.found, false, r.station.isSome, r.bike.isSome]]
    ++ be24 (r.bike.getD 0) ++ optSerial r.serial ++ be32 r.uptime ++ be32 (r.station.getD 0)

/-! ## Dock line frames (12.6) -/

/-- The lamp codes of 12.6. -/
inductive Lamp where
  | off | green | amber | greenFlash | red
  deriving DecidableEq, Repr

def Lamp.code : Lamp → Byte
  | .off => 0 | .green => 1 | .amber => 2 | .greenFlash => 3 | .red => 4

/-- The wattage of a charge level (9.1). -/
def Params.levelWatts (p : Params) (l : Level) : Nat :=
  if l = 0 then p.level0 else if l = 1 then p.level1 else if l = 2 then p.level2 else p.level3

/-- The wattage of a level, 0 W for no level (9.1). -/
def Params.watts (p : Params) : Option Level → Nat
  | some l => p.levelWatts l
  | none => 0

/-- The parameter bytes of a command frame (12.6). -/
def commandParameters (p : Params) (c : LineCommand) : List Byte :=
  match c with
  | .caps => be16 p.level0 ++ be16 p.level1 ++ be16 p.level2 ++ be16 p.level3
  | .accept l | .trim l | .restore l => be8 l.val
  | _ => []

/-- A command frame with its frame check (R113, R115, 12.6). -/
def commandFrame (p : Params) (d : DockId) (c : LineCommand) (lamp : Lamp) : List Byte :=
  let m := commandParameters p c
  withCrc16 (be8 (dockNumber d) ++ [c.code, lamp.code] ++ be8 m.length ++ m)

/-- A sense line (6.2, 12.6). -/
inductive SenseLine where
  | opened | term | low
  deriving DecidableEq, Repr

def senseLine? (c : Byte) : Option SenseLine :=
  if c = 0 then some .opened else if c = 1 then some .term else if c = 2 then some .low else none

/-- The contact code of the two sense lines (6.2, R90); the pair TERM and OPEN is a standard bike. -/
def contactCode : SenseLine → SenseLine → ContactCode
  | .low, _ => .short
  | _, .low => .short
  | .opened, .opened => .noBike
  | .term, .opened => .standardBike
  | .term, .term => .electricBike
  | .opened, .term => .misseated

/-- A dock report as the Dock Table and the Charge Controller read it (6.2). -/
structure Report where
  contents : Contents
  latch : LatchPosition
  applied : Option Level
  message : ChargeMessage
  soc : Option Nat
  deriving DecidableEq, Repr

/-- The tag status of its code, with the bike number read with OK (12.6). -/
def tagStatus? (c : Byte) (number : Nat) : Option TagStatus :=
  if c = 0 then some .none else if c = 1 then some (.ok number) else if c = 2 then some .conflict else none

def latchPosition? (c : Byte) : Option LatchPosition :=
  if c = 0 then some .closed else if c = 1 then some .opened else none

/-- A level 0..3. -/
def level? (c : Byte) : Option Level :=
  if h : c.toNat < 4 then some ⟨c.toNat, h⟩ else none

/-- An applied level: 0..3, FF hex NONE (12.6). -/
def appliedLevel? (c : Byte) : Option (Option Level) :=
  if c = 0xFF then some none else (level? c).map some

/-- A charge message; the requested level is read with REQUEST (12.6). -/
def chargeMessage? (c level : Byte) : Option ChargeMessage :=
  if c = 0 then some .none else if c = 1 then (level? level).map .request else if c = 2 then some .full else none

/-- A state of charge above 100, FF hex among them, is absent (R90, R114). -/
def socOf (c : Byte) : Option Nat := if c.toNat ≤ 100 then some c.toNat else none

/-- The report in an answer whose coded fields all lie in their sets (R114). -/
def reportOf? (bs : List Byte) : Option Report := do
  let a ← senseLine? (byteAt bs 1)
  let b ← senseLine? (byteAt bs 2)
  let tag ← tagStatus? (byteAt bs 3) (fieldVal bs 4 3)
  let latch ← latchPosition? (byteAt bs 7)
  let applied ← appliedLevel? (byteAt bs 8)
  let message ← chargeMessage? (byteAt bs 9) (byteAt bs 10)
  pure { contents := ⟨contactCode a b, tag⟩, latch := latch, applied := applied, message := message,
         soc := socOf (byteAt bs 11) }

/-- R114: the report of a good answer to a command sent to `d`; none when the answer is bad. -/
def goodAnswer? (d : DockId) (bs : List Byte) : Option Report :=
  if bs.length = Config.reportLength ∧ (byteAt bs 0).toNat = dockNumber d ∧ crc16Ok bs = true then reportOf? bs else none

/-! ## Parameters (11.6, 12.3) -/

/-- The range of the parameter that an identity names, for identities whose value is a number (11.6, 12.3). -/
def paramRange (id : Nat) : Option (Nat × Nat) :=
  match id with
  | 2 => some (1, 64) | 3 => some (1, 20) | 4 => some (1, 15) | 5 => some (1, 15) | 6 => some (1, 15) | 7 => some (1, 15)
  | 8 => some (0, 100) | 9 => some (500, 5000) | 10 => some (0, 2) | 11 => some (2, 60) | 12 => some (5, 120)
  | 13 => some (1, 10) | 14 => some (10, 600) | 15 => some (0, 600) | 16 => some (2, 30) | 17 => some (0, 255)
  | 18 => some (0, 3600) | 19 => some (0, 500) | 20 => some (3600, 2592000) | 21 => some (0, 64) | 22 => some (0, 255)
  | 23 => some (0, 10000) | 24 => some (10, 300) | 25 => some (1, 4) | 26 => some (10, 400) | 27 => some (10, 400)
  | 28 => some (10, 400) | 29 => some (10, 400) | 30 => some (500, 10000) | 31 => some (10, 300)
  | _ => none

/-- A value clamped to a range, to the nearer bound (R190). -/
def clamp (r : Nat × Nat) (v : Nat) : Nat := max r.1 (min v r.2)

/-- The value of the port roles parameter: 1 Port A RIDER, 2 Port A OPERATOR (12.3). -/
def roleValue : Role → Nat
  | .rider => 1 | .operator => 2

/-- The value in force of the parameter an identity names; none for an identity that names none (R191, 12.3). -/
def Params.get (p : Params) (id : Nat) : Option Nat :=
  match id with
  | 1 => some (roleValue p.portARole) | 2 => some p.dockCount | 3 => some p.answerWindow | 4 => some p.mUp
  | 5 => some p.mDown | 6 => some p.pConf | 7 => some p.pGone | 8 => some p.releaseThreshold | 9 => some p.latchConfirm
  | 10 => some p.latchRetries | 11 => some p.claimTimeout | 12 => some p.pickupWindow | 13 => some p.relockTime
  | 14 => some p.staleLimit | 15 => some p.bounceWindow | 16 => some p.referralTimeout | 17 => some p.gBase
  | 18 => some p.gMax | 19 => some p.drift | 20 => some p.syncLifetime | 21 => some p.cCap | 22 => some p.refill
  | 23 => some p.bTotal | 24 => some p.pLatch | 25 => some p.lSlots | 26 => some p.level0 | 27 => some p.level1
  | 28 => some p.level2 | 29 => some p.level3 | 30 => some p.chargeAnswer | 31 => some p.offerInterval
  | _ => none

/-- The parameters with one value put in force; identities 1 and 2 included, for the configuration load. -/
def Params.set (p : Params) (id v : Nat) : Params :=
  match id with
  | 1 => { p with portARole := if v = 2 then .operator else .rider }
  | 2 => { p with dockCount := v } | 3 => { p with answerWindow := v } | 4 => { p with mUp := v }
  | 5 => { p with mDown := v } | 6 => { p with pConf := v } | 7 => { p with pGone := v }
  | 8 => { p with releaseThreshold := v } | 9 => { p with latchConfirm := v } | 10 => { p with latchRetries := v }
  | 11 => { p with claimTimeout := v } | 12 => { p with pickupWindow := v } | 13 => { p with relockTime := v }
  | 14 => { p with staleLimit := v } | 15 => { p with bounceWindow := v } | 16 => { p with referralTimeout := v }
  | 17 => { p with gBase := v } | 18 => { p with gMax := v } | 19 => { p with drift := v }
  | 20 => { p with syncLifetime := v } | 21 => { p with cCap := v } | 22 => { p with refill := v }
  | 23 => { p with bTotal := v } | 24 => { p with pLatch := v } | 25 => { p with lSlots := v }
  | 26 => { p with level0 := v } | 27 => { p with level1 := v } | 28 => { p with level2 := v }
  | 29 => { p with level3 := v } | 30 => { p with chargeAnswer := v } | 31 => { p with offerInterval := v }
  | _ => p

/-- A value for Set Parameter: clamped to the range, a charge level further to lie between its neighbours (R166, R190). -/
def Params.clampFor (p : Params) (id v : Nat) (r : Nat × Nat) : Nat :=
  let c := clamp r v
  match id with
  | 26 => min c p.level1
  | 27 => max p.level0 (min c p.level2)
  | 28 => max p.level1 (min c p.level3)
  | 29 => max p.level2 c
  | _ => c

/-! ## Configuration image (12.7) -/

/-- The 132 bytes of an image with its CRC-16 (12.7, R192). -/
def imageBytes (p : Params) (identity : Nat) : List Byte :=
  withCrc16 (be16 Config.formatNumber ++ be32 identity
    ++ ((List.range 31).map (fun k => be32 ((p.get (k + 1)).getD 0))).flatten)

/-- R193, R199: an image is valid when its CRC-16 matches, its format number is this part's, and its port roles value
is 1 or 2. -/
def imageValid (bs : List Byte) : Bool :=
  decide (bs.length = Config.imageLength) && crc16Ok bs && decide (fieldVal bs 0 2 = Config.formatNumber)
    && (decide (fieldVal bs 6 4 = 1) || decide (fieldVal bs 6 4 = 2))

/-- The parameters of a valid image: each value clamped to its range, then the charge levels in ascending order, each
at least the level below it (R193, R199). -/
def imageParams (bs : List Byte) : Params :=
  let raw := (List.range 31).foldl (fun p k =>
    let v := fieldVal bs (6 + 4 * k) 4
    p.set (k + 1) (match paramRange (k + 1) with | some r => clamp r v | none => v)) Params.default
  let l1 := max raw.level1 raw.level0
  let l2 := max raw.level2 l1
  { raw with level1 := l1, level2 := l2, level3 := max raw.level3 l2 }

end Sys2Proof.Machine
end

