-- ==== Sys2Proof/Machine/Flags.lean ====
section
/-! DEFINITION. Event sets, ATTN and BUSY (11.1, 11.5). -/

namespace Sys2Proof.Machine

/-- The flag of a kind. -/
def EventFlags.get (f : EventFlags) : EventKind → Bool
  | .stationRestarted => f.stationRestarted
  | .resultReady => f.resultReady
  | .availabilityChanged => f.availabilityChanged
  | .configInvalid => f.configInvalid
  | .referralWaiting => f.referralWaiting
  | .dockFault => f.dockFault
  | .recordsNearFull => f.recordsNearFull
  | .recordsWaiting => f.recordsWaiting
  | .reservationChanged => f.reservationChanged
  | .clockUnsynced => f.clockUnsynced

/-- The flags with one flag put. -/
def EventFlags.put (f : EventFlags) (k : EventKind) (b : Bool) : EventFlags :=
  match k with
  | .stationRestarted => { f with stationRestarted := b }
  | .resultReady => { f with resultReady := b }
  | .availabilityChanged => { f with availabilityChanged := b }
  | .configInvalid => { f with configInvalid := b }
  | .referralWaiting => { f with referralWaiting := b }
  | .dockFault => { f with dockFault := b }
  | .recordsNearFull => { f with recordsNearFull := b }
  | .recordsWaiting => { f with recordsWaiting := b }
  | .reservationChanged => { f with reservationChanged := b }
  | .clockUnsynced => { f with clockUnsynced := b }

/-- The event kinds of a role, highest priority first (11.5). -/
def Role.kinds : Role → List EventKind
  | .rider => [.stationRestarted, .resultReady, .availabilityChanged, .configInvalid]
  | .operator => [.stationRestarted, .referralWaiting, .dockFault, .recordsNearFull, .recordsWaiting,
      .reservationChanged, .clockUnsynced, .configInvalid]

/-- The kinds a port has; the two kinds common to both roles while it has none (R188). -/
def Port.kinds (p : Port) : List EventKind :=
  match p.role with
  | some r => r.kinds
  | none => [.stationRestarted, .configInvalid]

/-- The flags whose kinds are in a list; the others are dropped (R188). -/
def EventFlags.keep (f : EventFlags) (ks : List EventKind) : EventFlags :=
  ks.foldl (fun g k => g.put k (f.get k)) EventFlags.none

/-- A set of flags in one byte: bit 0 stands for priority 1, and so on (12.3). -/
def EventFlags.bits (f : EventFlags) (ks : List EventKind) : Byte := Machine.bits (ks.map f.get)

/-- The kinds that a byte of Set Event Mask or Clear Events selects; bits of no kind are ignored (R187, 12.3). -/
def selectedKinds (ks : List EventKind) (sel : Byte) : List EventKind :=
  (ks.zipIdx.filter (fun k => sel.getLsbD k.2)).map Prod.fst

/-- ATTN: high while a flag of the port is both pending and enabled (R185). -/
def Port.attn (p : Port) : Bool := p.kinds.any (fun k => p.pending.get k && p.enabled.get k)

/-- BUSY: high while an outstanding request's response is not complete (R181). -/
def Port.busy (p : Port) : Bool :=
  p.outstanding.any (fun o => match o.progress with | .complete _ => false | _ => true)

end Sys2Proof.Machine
end

