-- ==== Sys2Proof/Machine/Memory.lean ====
section
/-! DEFINITION. The external serial memory at the SPI port (12.7, R199), as a canonical list of cells: addresses strictly
rising, no cell equal to what an unlisted address reads as. An unlisted address reads FF hex, the value a memory that does
not answer reads as (R193; log entry 8). -/

namespace Sys2Proof.Machine

/-- What an address that nothing has written reads as (log entry 8). -/
def memBlank : Byte := 0xFF

/-- The byte at an address. -/
def memRead : List Host.Cell → Nat → Byte
  | [], _ => memBlank
  | c :: m, a => if c.1 = a then c.2 else memRead m a

/-- One byte written; writing the blank value unlists the address. -/
def memWrite : List Host.Cell → Nat → Byte → List Host.Cell
  | [], a, b => if b = memBlank then [] else [(a, b)]
  | c :: m, a, b =>
    if a < c.1 then (if b = memBlank then c :: m else (a, b) :: c :: m)
    else if a = c.1 then (if b = memBlank then m else (a, b) :: m)
    else c :: memWrite m a b

/-- Bytes written from an address upward. -/
def memWriteBytes (m : List Host.Cell) (a : Nat) : List Byte → List Host.Cell
  | [] => m
  | b :: bs => memWriteBytes (memWrite m a b) (a + 1) bs

/-- `n` bytes read from an address upward. -/
def memReadBytes (m : List Host.Cell) (a n : Nat) : List Byte := (List.range n).map (fun k => memRead m (a + k))

/-- The canonical form: addresses strictly rising from `lo`, no blank cell. -/
def memWfFrom : Nat → List Host.Cell → Bool
  | _, [] => true
  | lo, c :: m => decide (lo ≤ c.1) && decide (c.2 ≠ memBlank) && memWfFrom (c.1 + 1) m

/-- The canonical form of the memory. -/
def Memory.wf (m : List Host.Cell) : Bool := memWfFrom 0 m

end Sys2Proof.Machine
end

