-- ==== Sys2Proof/Machine/Ops.lean ====
section
/-! DEFINITION. Named operations over the state that more than one family uses: one record of many, events, time, the
derived views of the Dock Table, credit, and the answering of requests. -/

namespace Sys2Proof.Machine

/-! ## One record of many -/

/-- The record of one dock. -/
def at64 {α : Type} (v : Vector α 64) (d : DockId) : α := v.get d

/-- The records with the record of one dock replaced. -/
def put64 {α : Type} (v : Vector α 64) (d : DockId) (x : α) : Vector α 64 := v.set d.val x d.isLt

def State.port (s : State) : PortId → Port
  | .a => s.portA
  | .b => s.portB

def State.setPort (s : State) (p : PortId) (x : Port) : State :=
  match p with
  | .a => { s with portA := x }
  | .b => { s with portB := x }

def State.dock (s : State) (d : DockId) : Dock := at64 s.docks d

def State.setDock (s : State) (d : DockId) (x : Dock) : State := { s with docks := put64 s.docks d x }

def State.link (s : State) (d : DockId) : Link := at64 s.line.links d

def State.setLink (s : State) (d : DockId) (x : Link) : State :=
  { s with line := { s.line with links := put64 s.line.links d x } }

def State.chg (s : State) (d : DockId) : Charge := at64 s.charge d

def State.setChg (s : State) (d : DockId) (x : Charge) : State := { s with charge := put64 s.charge d x }

def State.relState (s : State) (d : DockId) : Option ReleaseState := at64 s.rel.states d

def State.setRel (s : State) (d : DockId) (x : Option ReleaseState) : State :=
  { s with rel := { s.rel with states := put64 s.rel.states d x } }

/-- All 64 docks, ascending (R89). -/
def allDocks : List DockId := List.finRange 64

/-- Docks 1..dock count, ascending (R89). -/
def State.docksInUse (s : State) : List DockId :=
  allDocks.filter (fun d => decide (d.val < s.cfg.params.dockCount))

/-- The dock of a request field, when it lies in 1..dock count (R106, R107, R110, R125, R147, R168). -/
def State.dockInUse? (s : State) (n : Nat) : Option DockId :=
  if n ≤ s.cfg.params.dockCount then dockOfNumber? n else none

/-- A link is LINKED (7.4). -/
def State.linked (s : State) (d : DockId) : Bool := decide ((s.link d).state = .linked)

/-! ## Events (11.5) -/

/-- A port with one flag pending (R185). -/
def Port.raise (x : Port) (k : EventKind) : Port := { x with pending := x.pending.put k true }

/-- An event set for a role, in each port that holds it (R185). -/
def State.raiseFor (s : State) (r : Role) (k : EventKind) : State :=
  { s with portA := if s.portA.role = some r then s.portA.raise k else s.portA
           portB := if s.portB.role = some r then s.portB.raise k else s.portB }

/-- An event set on both ports (R192, R194). -/
def State.raiseBoth (s : State) (k : EventKind) : State :=
  { s with portA := s.portA.raise k, portB := s.portB.raise k }

/-! ## Time (R25, R26) -/

/-- Uptime in seconds (R25). -/
def State.uptime (s : State) : Nat := s.clock.ms / 1000

/-- A deadline some milliseconds ahead; none is set beyond the count at which uptime holds (R25). -/
def State.afterMs (s : State) (n : Nat) : Nat := min (s.clock.ms + n) Config.maxMs

/-- An expiry some seconds ahead; none is set beyond the value at which uptime holds (R25). -/
def State.afterSeconds (s : State) (n : Nat) : Nat := min (s.uptime + n) Config.max32

/-- A deadline that is reached now (R25). -/
def State.isReached (s : State) (deadline : Nat) : Bool :=
  decide (deadline ≤ s.clock.ms) || decide (Config.maxMs ≤ s.clock.ms)

/-- The millisecond count at a deadline that is reached: a deadline already passed or equal, any deadline once uptime
holds, or one later within the current second, to which the count then moves (R25; log entry 5). -/
def State.reached (s : State) (deadline : Nat) : Option State :=
  if deadline ≤ s.clock.ms ∨ Config.maxMs ≤ s.clock.ms then some s
  else if deadline / 1000 = s.uptime then some { s with clock := { s.clock with ms := deadline } }
  else none

/-- The recordable station time (R26). -/
def State.recordable (s : State) : Option Nat := if s.clock.synced then some s.clock.stationTime else none

/-! ## Offline credit (2.5) -/

/-- The cap of the offline credit (R35). -/
def State.creditCap (s : State) : Nat := 16 * s.cfg.params.cCap

/-- An amount added to the credit and clamped at the cap: a refill or a refund (R36, R38). -/
def State.addCredit (s : State) (n : Nat) : State :=
  { s with clock := { s.clock with credit := min (s.clock.credit + n) s.creditCap } }

/-! ## Views of the Dock Table (R108, R109, R112) -/

/-- A state of charge in a test or an ordering: absent counts as 0 (R90). -/
def Bike.charge (b : Bike) : Nat := b.soc.getD 0

/-- Release-ready (R108). -/
def State.releaseReady (s : State) (d : DockId) : Bool :=
  decide ((s.dock d).state = .docked) && s.linked d && ((s.dock d).bike.bind Bike.number).isSome
    && (s.dock d).heldBy.isNone

/-- A dock with a bike that the release threshold does not keep back (R108). -/
def State.aboveThreshold (s : State) (b : Bike) : Bool :=
  decide (b.kind = .standard) || decide (s.cfg.params.releaseThreshold ≤ b.charge)

/-- A dock counted in the eligible count of a kind (R108). -/
def State.countedFor (s : State) (k : BikeKind) (d : DockId) : Bool :=
  s.releaseReady d && match (s.dock d).bike with
    | some b => decide (b.kind = k) && s.aboveThreshold b
    | none => false

/-- A dock counted in an eligible count (R108). -/
def State.counted (s : State) (d : DockId) : Bool :=
  decide (d.val < s.cfg.params.dockCount) && (s.countedFor .standard d || s.countedFor .electric d)

/-- An eligible count (R108). -/
def State.eligibleCount (s : State) (k : BikeKind) : Nat := (s.docksInUse.filter (s.countedFor k)).length

/-- Docks 1..dock count in a state (R111). -/
def State.countState (s : State) (x : DockState) : Nat :=
  (s.docksInUse.filter (fun d => decide ((s.dock d).state = x))).length

/-- The lamp code (R112). -/
def State.lamp (s : State) (d : DockId) : Lamp :=
  match (s.dock d).state with
  | .unknown | .empty | .arriving => .off
  | .docked => if s.counted d then .green else .amber
  | .claimed | .unlatching | .pickup => .greenFlash
  | .relock | .fault | .outOfService => .red

/-- A dock in a release stage (6.3). -/
def DockState.inRelease : DockState → Bool
  | .claimed | .unlatching | .pickup | .relock => true
  | _ => false

/-! ## Ordering -/

/-- A list in ascending order of `before`, equal members kept in their order. -/
def insertBy {α : Type} (before : α → α → Bool) (x : α) : List α → List α
  | [] => [x]
  | y :: ys => if before y x then y :: insertBy before x ys else x :: y :: ys

def sortBy {α : Type} (before : α → α → Bool) (xs : List α) : List α := xs.foldr (insertBy before) []

/-- The first member that no member before it beats, and none after it beats strictly. -/
def firstBy {α : Type} (before : α → α → Bool) (xs : List α) : Option α :=
  xs.foldl (fun best x => match best with
    | none => some x
    | some b => if before x b then some x else some b) none

/-! ## Requests (11.1, 11.3) -/

/-- An outstanding request whose response is complete (R180). -/
def Outstanding.isComplete (o : Outstanding) : Bool :=
  match o.progress with
  | .complete _ => true
  | _ => false

/-- The request a port executes next: the oldest without a complete response, while it waits (R180). -/
def Port.next (x : Port) : Option Request :=
  match x.outstanding.find? (fun o => !o.isComplete) with
  | some ⟨r, .waiting⟩ => some r
  | _ => none

/-- The progress of the oldest request without a complete response. -/
def putProgress (g : Progress) : List Outstanding → List Outstanding
  | [] => []
  | o :: os => if o.isComplete then o :: putProgress g os else { o with progress := g } :: os

/-- The oldest request without a complete response goes to a progress (R180). -/
def State.progress (s : State) (p : PortId) (g : Progress) : State :=
  s.setPort p { s.port p with outstanding := putProgress g (s.port p).outstanding }

/-- The response of the request that a port executes becomes complete (R180). -/
def State.respond (s : State) (p : PortId) (r : Response) : State := s.progress p (.complete r)

/-- What a request's own rule answers: a response at once, or none while work it waits for goes on (R180). -/
structure Answer where
  state : State
  response : Option Response

/-- An answer that completes at once. -/
def answer (s : State) (st : Status) (payload : List Byte) : Answer := ⟨s, some ⟨st, payload⟩⟩

/-- An answer without a payload (log entry 7). -/
def refuse (s : State) (st : Status) : Answer := ⟨s, some ⟨st, []⟩⟩

/-- Whom a request belongs to (11.4), and whether it is answered before the configuration load ends (R184). -/
inductive Access where
  | rider | operator | both | always
  deriving DecidableEq, Repr

/-- A port's role may make the request; test 3 is not made while the port has no role (R184). -/
def Access.allows (a : Access) (r : Option Role) : Bool :=
  match a, r with
  | .rider, some .operator => false
  | .operator, some .rider => false
  | _, _ => true

/-- The requests of 12.3: the code, whom it belongs to (11.4), and the length of its payload. Add Revocation Ranges stands with
the length of its count, which is followed by the ranges that the count names. -/
def requestTable : List (Byte × Access × Nat) :=
  [(0x01, .always, 0), (0x02, .always, 0), (0x03, .always, 0), (0x04, .both, 1), (0x05, .both, 0), (0x06, .both, 1),
   (0x10, .rider, 25), (0x11, .rider, 0), (0x20, .operator, 4), (0x21, .operator, 9), (0x22, .operator, 0),
   (0x23, .operator, 3), (0x24, .operator, 1), (0x25, .operator, 0), (0x26, .operator, 0), (0x27, .operator, 4),
   (0x28, .operator, 4), (0x30, .operator, 0), (0x31, .operator, 1), (0x32, .operator, 8), (0x33, .operator, 1),
   (0x40, .operator, 8), (0x41, .operator, 4), (0x42, .operator, 0), (0x50, .operator, 1), (0x51, .operator, 2),
   (0x52, .both, 1), (0x53, .both, 0), (0x54, .operator, 1), (0x55, .operator, 1), (0x56, .operator, 1),
   (0x60, .operator, 2), (0x61, .operator, 2), (0x70, .operator, 5), (0x71, .operator, 1), (0x72, .operator, 2),
   (0x73, .operator, 0)]

/-- The request codes of 12.3. -/
def requestCodes : List Byte := requestTable.map (fun e => e.1)

/-- The lengths of Add Revocation Ranges: its count, and for a count of 1..8 exactly the ranges it names (R184, R49). -/
def addRangesLength (bs : List Byte) : Bool :=
  let n := (byteAt bs 0).toNat
  decide (1 ≤ bs.length) && (decide (n < 1 ∨ 8 < n) || decide (bs.length = 1 + 8 * n))

/-- The payload of a request code has a length that the request can have (12.3, R184). -/
def payloadLengthOk (code : Byte) (payload : List Byte) : Bool :=
  if code = 0x24 then addRangesLength payload
  else requestTable.any (fun e => decide (e.1 = code) && decide (e.2.2 = payload.length))

/-- Whom the request of a code belongs to; none for a code that names no request. -/
def requestAccess (code : Byte) : Option Access :=
  (requestTable.find? (fun e => decide (e.1 = code))).map (fun e => e.2.1)

/-- The tests 2 to 4 of R184 of a request whose code is known. -/
def requestTests (a : Access) (lengthOk : Bool) (role : Option Role) (ready : Bool) : Option Status :=
  if !lengthOk then some .badLength
  else if !a.allows role then some .role
  else if !ready && decide (a ≠ .always) then some .notReady
  else none

/-- AVAILABILITY_CHANGED, where an event has left an eligible count different from its value before the event (R109). -/
def State.noteAvailability (before after : State) : State :=
  if before.eligibleCount .standard = after.eligibleCount .standard
      ∧ before.eligibleCount .electric = after.eligibleCount .electric then after
  else after.raiseFor .rider .availabilityChanged

end Sys2Proof.Machine
end

