-- ==== Sys2Proof/Machine/Records.lean ====
section
/-! DEFINITION. The Record Queue: slots, writing, owed records (chapter 10), and the end of an event. The requests of the
chapter stand in RecordRequests. -/

namespace Sys2Proof.Machine

/-- Free slots (10.2). -/
def State.freeSlots (s : State) : Nat := Config.maxRecords - s.recs.records.length - s.recs.reserved

/-- The slot test (R171). -/
def State.slotTest (s : State) : Bool := decide (s.recs.records.length + s.recs.reserved < Config.slotLimit)

/-- A slot is reserved (R171). -/
def State.reserveSlot (s : State) : State := { s with recs := { s.recs with reserved := s.recs.reserved + 1 } }

/-- A reservation is released with no record written, or used by the record written next (R171, R172). -/
def State.releaseSlot (s : State) : State := { s with recs := { s.recs with reserved := s.recs.reserved - 1 } }

/-- A record joins the queue (R170) and raises RECORDS_WAITING, and RECORDS_NEAR_FULL at 96 (R177). -/
def State.writeRecord (s : State) (r : TripRecord) : State :=
  let q := s.recs
  let s1 := { s with recs := { q with records := q.records ++ [(⟨q.nextSeq, r⟩ : QueuedRecord)], nextSeq := (q.nextSeq + 1) % 65536 } }
  let s2 := s1.raiseFor .operator .recordsWaiting
  if q.records.length + 1 = Config.nearFull then s2.raiseFor .operator .recordsNearFull else s2

/-- A RETURN or ANOMALY is written, held as the dock's owed record, or dropped and counted lost (R173). -/
def State.handOver (s : State) (r : TripRecord) : State :=
  if 0 < s.freeSlots then s.writeRecord r
  else match (s.dock r.dock).owed with
    | none => s.setDock r.dock { s.dock r.dock with owed := some r }
    | some _ => { s with recs := { s.recs with lost := min (s.recs.lost + 1) 65535 } }

/-- One dock of the owed pass (R174). -/
def State.writeOwed (s : State) (d : DockId) : State :=
  match (s.dock d).owed with
  | none => s
  | some r => if 0 < s.freeSlots then (s.setDock d { s.dock d with owed := none }).writeRecord r else s

/-- The owed pass (R174). -/
def State.owedPass (s : State) : State := allDocks.foldl State.writeOwed s

/-- A dock holds an owed record that it did not hold before the event. -/
def owedAnew (before after : State) : Bool :=
  allDocks.any (fun d => (after.dock d).owed.isSome && (before.dock d).owed.isNone)

/-- The end of an event that began at `before`: the owed pass, when a slot has become free or a record has become owed in the
event (R174; log entry 43), then AVAILABILITY_CHANGED when an eligible count differs (R109). The pass writes what it finds
room for, so that an event which makes a record owed and then releases a slot ends with the record written. -/
def closeEvent (before after : State) : State :=
  State.noteAvailability before
    (if decide (before.freeSlots < after.freeSlots) || owedAnew before after then after.owedPass else after)

/-- The row of a request: the request of its code that the port executes next is tested (R184) and answered by the
request's own rule; without such a request nothing happens (log entries 1, 3). -/
def serve (p : PortId) (code : Byte) (a : Access) (lengthOk : List Byte → Bool) (rule : List Byte → State → Answer)
    (s : State) : State :=
  match (s.port p).next with
  | none => s
  | some r =>
    if r.code = code then
      match requestTests a (lengthOk r.payload) (s.port p).role s.cfg.ready with
      | some st => s.respond p ⟨st, []⟩
      | none =>
        let out := rule r.payload s
        closeEvent s (match out.response with
          | some resp => out.state.respond p resp
          | none => out.state.progress p .executing)
    else s

/-- A payload of one length. -/
def lengthIs (n : Nat) (bs : List Byte) : Bool := decide (bs.length = n)

/-- The records of the queue from the one that carries a sequence. -/
def recordsFrom (seq : Nat) (rs : List QueuedRecord) : List QueuedRecord := rs.dropWhile (fun q => decide (q.seq ≠ seq))

/-- The oldest sequence and the occupied count, as a NOT_FOUND carries them (R175). -/
def State.oldestSeq (s : State) : List Byte := optSeq (s.recs.records.head?.map QueuedRecord.seq)

end Sys2Proof.Machine
end

