-- ==== Sys2Proof/Machine/Clock.lean ====
section
/-! DEFINITION. The Clock and Credit Unit: second boundaries, sync, grace, the window test, the refill (chapter 2). -/

namespace Sys2Proof.Machine

/-- The sync age E (R27). -/
def State.syncAge (s : State) : Nat := s.uptime - s.clock.lastSync

/-- The drift term: E × d over 1,000,000, rounded up (R31). -/
def driftTerm (age ppm : Nat) : Nat := (age * ppm + 999999) / 1000000

/-- The grace G (R31). -/
def graceOf (p : Params) (age : Nat) : Nat := min (p.gBase + driftTerm age p.drift) p.gMax

/-- The grace in force (R32). -/
def State.grace (s : State) : Nat := graceOf s.cfg.params s.syncAge

/-- The sync age exceeds the sync lifetime (R29). -/
def State.overAge (s : State) : Bool := decide (s.cfg.params.syncLifetime < s.syncAge)

def State.setSync (s : State) (c : SyncCondition) : State := { s with clock := { s.clock with sync := c } }

/-- SECOND_BOUNDARY: uptime advances to the next second, and station time with it (R25, R26); a minute boundary makes a
refill due (R36; log entry 27). At the value at which uptime holds there is no boundary. -/
def secondBoundary (s : State) : State :=
  if s.uptime < Config.max32 then
    { s with clock := { s.clock with
        ms := (s.uptime + 1) * 1000
        stationTime := min (s.clock.stationTime + 1) Config.max32
        refillsDue := if (s.uptime + 1) % 60 = 0 then s.clock.refillsDue + 1 else s.clock.refillsDue } }
  else s

def execSecondBoundary (s : State) : Host.Outcome State Fault Refusal := .next (secondBoundary s)

/-- The sync lapses and CLOCK_UNSYNCED is raised (R29). -/
def State.lapse (s : State) : State := (s.setSync .lapsed).raiseFor .operator .clockUnsynced

/-- SYNC_LAPSE: in CURRENT, a sync age above the lifetime lapses the sync (R29). -/
def syncLapse (s : State) : State := if s.clock.sync = .current ∧ s.overAge = true then s.lapse else s

def execSyncLapse (s : State) : Host.Outcome State Fault Refusal := .next (syncLapse s)

/-- A changed sync lifetime compared with the sync age (R30). -/
def State.compareSync (s : State) : State :=
  match s.clock.sync with
  | .current => syncLapse s
  | .lapsed => if s.overAge then s else s.setSync .current
  | .never => s

/-- CREDIT_REFILL: the refill of a minute boundary (R36). -/
def creditRefill (s : State) : State :=
  if 0 < s.clock.refillsDue then
    let s1 := s.addCredit s.cfg.params.refill
    { s1 with clock := { s1.clock with refillsDue := s1.clock.refillsDue - 1 } }
  else s

def execCreditRefill (s : State) : Host.Outcome State Fault Refusal := .next (creditRefill s)

/-- Set Time (R28). A sync whose age exceeds its lifetime has lapsed at the boundary before (R29): where SYNC_LAPSE has not
been taken yet, its comparison is made first. -/
def setTime (payload : List Byte) (s : State) : Answer :=
  let s1 := syncLapse s
  answer { s1 with clock := { s1.clock with
      stationTime := fieldVal payload 0 4, synced := true, lastSync := s1.uptime, sync := .current } } .done
    (be32 s1.clock.stationTime)

def execSetTime (p : PortId) (s : State) : Host.Outcome State Fault Refusal :=
  .next (serve p 0x20 .operator (lengthIs 4) setTime s)

/-! ## Window test (2.4) -/

/-- The verdict of the window test (R34). -/
inductive Window where
  | notYet
  | passes (timeLeft : Nat)
  | expired
  deriving DecidableEq, Repr

/-- R33, R34: the test of issue minute and validity at station time t with grace G. -/
def windowTest (issue validity t g : Nat) : Window :=
  let upper := 60 * issue + 60 * validity + g
  if (t : Int) < (60 * issue : Int) - g then .notYet
  else if upper < t then .expired
  else .passes (upper - t)

end Sys2Proof.Machine
end

