-- ==== Sys2Proof/Machine/Line.lean ====
section
/-! DEFINITION. The Dock Line Controller: asking and withdrawing commands, the settlement of a command in flight, the
link count and the arbiter (chapter 7). What follows a judgement in the other blocks stands in Judgement. -/

namespace Sys2Proof.Machine

/-! ## Queues (7.2) -/

def Line.queue (l : Line) : CommandClass → List LineEntry
  | .latch => l.latchQ
  | .charge => l.chargeQ

def Line.setQueue (l : Line) (k : CommandClass) (q : List LineEntry) : Line :=
  match k with
  | .latch => { l with latchQ := q }
  | .charge => { l with chargeQ := q }

def State.setQueue (s : State) (k : CommandClass) (q : List LineEntry) : State :=
  { s with line := s.line.setQueue k q }

/-- A dock's entry in a queue, at most one (R117). -/
def entryOf (q : List LineEntry) (d : DockId) : Option LineEntry := q.find? (fun e => decide (e.dock = d))

/-- A queue without a dock's entry; the entries behind it keep their order (R118, R123). -/
def withoutDock (q : List LineEntry) (d : DockId) : List LineEntry := q.filter (fun e => decide (e.dock ≠ d))

/-- The command in flight for a dock, of a class (7.2). -/
def State.flight (s : State) (d : DockId) (k : CommandClass) : Option LineCommand :=
  match s.line.txn with
  | some t => if t.dock = d ∧ t.command.cls = some k then some t.command else none
  | none => none

/-- The commands of a class that are queued or in flight for a dock. -/
def State.commandsFor (s : State) (d : DockId) (k : CommandClass) : List LineCommand :=
  ((entryOf (s.line.queue k) d).map LineEntry.command).toList ++ (s.flight d k).toList

/-- A charge command for the dock is queued or in flight (R151, R153). -/
def State.chargeBusy (s : State) (d : DockId) : Bool := !(s.commandsFor d .charge).isEmpty

/-- A CHARGE_STOP or CHARGE_TRIM for the dock is queued or in flight (R152). -/
def State.lowering (s : State) (d : DockId) : Bool := (s.commandsFor d .charge).any LineCommand.lowers

/-- A contract goes to IDLE with an offer time or none; every field that IDLE does not have is cleared (R156). -/
def State.toIdle (s : State) (d : DockId) (offer : Option Nat) : State :=
  s.setChg d { s.chg d with
    contract := some .idle, granted := none, requested := none, offerTime := offer, capsDelivered := false,
    answerDeadline := none }

/-- REPLACED for the CHARGE_CAPS of an OFFERED contract: IDLE with offer time now (R157). -/
def State.capsReplaced (s : State) (d : DockId) : State :=
  if (s.chg d).contract = some .offered then s.toIdle d (some s.clock.ms) else s

/-- An originator asks for a command (R117). -/
def State.ask (s : State) (d : DockId) (c : LineCommand) : State :=
  match c.cls with
  | none => s
  | some k =>
    if s.linked d then
      let q := s.line.queue k
      match entryOf q d with
      | none => s.setQueue k (q ++ [⟨d, c, false⟩])
      | some old =>
        let s1 := s.setQueue k (q.map (fun e => if e.dock = d then { e with command := c } else e))
        if old.command = .caps then s1.capsReplaced d else s1
    else s

/-- The place in a queue that is left to a command in flight when an entry before it is removed. -/
def placeAfterRemoval (q : List LineEntry) (d : DockId) (place : Nat) : Nat :=
  if (q.take place).any (fun e => decide (e.dock = d)) then place - 1 else place

/-- A dock's entry is removed from a queue; a command in flight of the class keeps its place among the others. -/
def State.removeEntry (s : State) (d : DockId) (k : CommandClass) : State :=
  let q := s.line.queue k
  let s1 := s.setQueue k (withoutDock q d)
  match s.line.txn with
  | some t =>
    if t.command.cls = some k then
      { s1 with line := { s1.line with txn := some { t with place := placeAfterRemoval q d t.place } } }
    else s1
  | none => s1

/-- An originator withdraws the command of a class for a dock: the entry is removed, a command in flight has the
withdrawal held against it (R118). -/
def State.withdraw (s : State) (d : DockId) (k : CommandClass) : State :=
  let s1 := s.removeEntry d k
  match s1.line.txn with
  | some t =>
    if t.dock = d ∧ t.command.cls = some k then
      { s1 with line := { s1.line with txn := some { t with withdrawn := true } } }
    else s1
  | none => s1

/-- The withdrawal at a claim, of a CHARGE_CAPS alone (R163). -/
def State.withdrawCaps (s : State) (d : DockId) : State :=
  if LineCommand.caps ∈ s.commandsFor d .charge then s.withdraw d .charge else s

/-! ## Link count (R122) -/

/-- One judged answer counted toward a link. -/
def Link.count (p : Params) (l : Link) (good : Bool) : Link :=
  match l.state, good with
  | .linked, true => { l with bad := 0 }
  | .linked, false => if p.mDown ≤ l.bad + 1 then ⟨.lost, 0, 0⟩ else { l with bad := l.bad + 1 }
  | _, true => if p.mUp ≤ l.good + 1 then ⟨.linked, 0, 0⟩ else { l with good := l.good + 1 }
  | _, false => { l with good := 0 }

/-! ## Settlement of the command in flight (R119, R123) -/

/-- COMPLETED for CHARGE_CAPS: the answer deadline starts, unless a later CHARGE_CAPS waits (R157; log entry 19). -/
def State.capsCompleted (s : State) (d : DockId) : State :=
  if (s.chg d).contract = some .offered ∧ (entryOf s.line.chargeQ d).isNone then
    s.setChg d { s.chg d with capsDelivered := true, answerDeadline := some (s.afterMs s.cfg.params.chargeAnswer) }
  else s

/-- An entry set at a place of a queue. -/
def insertAtPlace (q : List LineEntry) (place : Nat) (e : LineEntry) : List LineEntry :=
  q.take place ++ e :: q.drop place

/-- R119: the command of the transaction `t`, which has ended with the link not LOST. A failed CHARGE_CAPS that gives way to
a newer CHARGE_CAPS leaves its OFFERED contract as it is (DESIGN CHOICE, log entry 47). -/
def State.settleCommand (s : State) (t : Transaction) (good : Bool) : State :=
  match t.command.cls with
  | none => s
  | some k =>
    if good then (if t.command = .caps then s.capsCompleted t.dock else s)
    else
      let q := s.line.queue k
      match entryOf q t.dock with
      | some newer =>
        let s1 := s.setQueue k (insertAtPlace (withoutDock q t.dock) t.place { newer with resendWait := true })
        if t.command = .caps ∧ newer.command ≠ .caps then s1.capsReplaced t.dock else s1
      | none =>
        if t.withdrawn then s else s.setQueue k (insertAtPlace q t.place ⟨t.dock, t.command, true⟩)

/-- R123: every command of a dock whose link has become LOST is dropped. -/
def State.dropCommands (s : State) (d : DockId) : State := (s.removeEntry d .latch).removeEntry d .charge

/-! ## Arbiter (7.3) -/

/-- The dock after a dock, the dock count followed by dock 1 (R121). -/
def State.dockAfter (s : State) (d : DockId) : DockId :=
  if h : d.val + 1 < 64 then (if d.val + 1 < s.cfg.params.dockCount then ⟨d.val + 1, h⟩ else 0) else 0

/-- The dock that the next POLL goes to, from the poll pointer upward (R121). -/
def State.pollDock (s : State) : Option DockId :=
  let order := s.docksInUse.filter (fun d => decide (s.line.ptr.val ≤ d.val))
    ++ s.docksInUse.filter (fun d => decide (d.val < s.line.ptr.val))
  order.find? (fun d => (entryOf s.line.latchQ d).isNone && (entryOf s.line.chargeQ d).isNone)

/-- A transaction begins: its frame is formed as things stand, with the window in force (R113, R127). -/
def State.startTransaction (s : State) (d : DockId) (c : LineCommand) (place : Nat) : State :=
  { s with line := { s.line with
      txn := some { dock := d, command := c, place := place, withdrawn := false,
                    frame := commandFrame s.cfg.params d c (s.lamp d), window := s.cfg.params.answerWindow,
                    phase := .sending } } }

/-- An entry whose resend wait is cleared because a grant passed it over (R120). -/
def LineEntry.passed (e : LineEntry) : LineEntry := { e with resendWait := false }

/-- A queue with its oldest entry free of resend wait taken out: the entry, its place, and the rest, in which the entries
before it, passed over, have their resend wait cleared (R120; log entry 13). -/
def takeFree : List LineEntry → Option (LineEntry × Nat × List LineEntry)
  | [] => none
  | e :: es =>
    if e.resendWait then
      match takeFree es with
      | some (x, n, rest) => some (x, n + 1, e.passed :: rest)
      | none => none
    else some (e, 0, es)

/-- R120: the arbiter makes one grant. -/
def State.lineGrant (s : State) : State :=
  match takeFree s.line.latchQ with
  | some (e, n, rest) => (s.setQueue .latch rest).startTransaction e.dock e.command n
  | none =>
    let s1 := s.setQueue .latch (s.line.latchQ.map LineEntry.passed)
    match takeFree s.line.chargeQ with
    | some (e, n, rest) => (s1.setQueue .charge rest).startTransaction e.dock e.command n
    | none =>
      let s2 := s1.setQueue .charge (s.line.chargeQ.map LineEntry.passed)
      match s.pollDock with
      | some d => ({ s2 with line := { s2.line with ptr := s.dockAfter d } }).startTransaction d .poll 0
      | none =>
        match s2.line.latchQ, s2.line.chargeQ with
        | e :: rest, _ => (s2.setQueue .latch rest).startTransaction e.dock e.command 0
        | [], e :: rest => (s2.setQueue .charge rest).startTransaction e.dock e.command 0
        | [], [] => s2

/-- COMMAND_FRAME_SENT: the pair is released and the answer window opens (R113). -/
def commandFrameSent (s : State) : State :=
  match s.line.txn with
  | some t =>
    if t.phase = .sending then { s with line := { s.line with txn := some { t with phase := .window s.clock.ms } } } else s
  | none => s

def execCommandFrameSent (s : State) : Host.Outcome State Fault Refusal := .next (commandFrameSent s)

/-! ## View (R125) -/

/-- The resend wait of a queue entry, preceded by its presence byte (R125, R198). -/
def resendBytes (e : Option LineEntry) : List Byte := present yesNo [0] (e.map LineEntry.resendWait)

/-- A queue entry in Read Line Status: the command kind, its level where the queue is the charge queue, the resend wait. -/
def latchEntryBytes (e : Option LineEntry) : List Byte :=
  optCode LineCommand.code (e.map LineEntry.command) ++ resendBytes e

def chargeEntryBytes (e : Option LineEntry) : List Byte :=
  optCode LineCommand.code (e.map LineEntry.command) ++ optLevel (e.bind (fun x => x.command.level)) ++ resendBytes e

/-- The fields of Read Line Status (R125; log entry 6). -/
def State.lineStatusBytes (s : State) (d : DockId) : List Byte :=
  let l := s.link d
  [l.state.code] ++ be16 l.good ++ be16 l.bad ++ latchEntryBytes (entryOf s.line.latchQ d)
    ++ chargeEntryBytes (entryOf s.line.chargeQ d)
    ++ optCode LineCommand.code (match s.line.txn with
        | some t => if t.dock = d then some t.command else none
        | none => none)
    ++ be16 s.line.latchQ.length ++ be16 s.line.chargeQ.length ++ be8 (dockNumber s.line.ptr)

/-- Read Line Status (R125). -/
def readLineStatus (payload : List Byte) (s : State) : Answer :=
  match s.dockInUse? (fieldVal payload 0 1) with
  | none => refuse s .outOfRange
  | some d => answer s .done (s.lineStatusBytes d)

def execReadLineStatus (p : PortId) (s : State) : Host.Outcome State Fault Refusal :=
  .next (serve p 0x54 .operator (lengthIs 1) readLineStatus s)

end Sys2Proof.Machine
end

