-- ==== Sys2Proof/Machine/Charge.lean ====
section
/-! DEFINITION. The Charge Controller: the budget, the grant pass, trims, contracts and messages (chapter 9), and the head
test of the latch grant queue that goes with every change of headroom (R131, R154). -/

namespace Sys2Proof.Machine

/-! ## Budget (9.3) -/

/-- Σ counted over docks 1..dock count (R154). -/
def State.countedSum (s : State) : Nat := (s.docksInUse.map (fun d => (s.chg d).counted)).sum

/-- The headroom H, signed (R154). -/
def State.headroom (s : State) : Int :=
  (s.cfg.params.bTotal : Int) - s.countedSum - s.cfg.params.pLatch * s.rel.pulses

/-- The wattage of a level or of none, in force (9.1). -/
def State.watts (s : State) (l : Option Level) : Nat := s.cfg.params.watts l

/-- Latch-held (R155). -/
def State.latchHeld (s : State) : Bool := !s.rel.grantQ.isEmpty && decide (s.rel.pulses < s.cfg.params.lSlots)

/-- The accept rule for raising a dock to a level (R155). -/
def State.acceptRule (s : State) (d : DockId) (l : Level) : Bool :=
  decide ((s.watts (some l) : Int) - (s.chg d).counted ≤ s.headroom - s.cfg.params.pLatch)

/-- A level that no state of the station could admit (R157). -/
def State.neverFits (s : State) (l : Level) : Bool :=
  decide (s.cfg.params.bTotal < s.watts (some l) + s.cfg.params.pLatch)

/-- The reduction that commands already sent to a dock will bring (R161). -/
def State.dockReduction (s : State) (d : DockId) : Nat :=
  if s.linked d then (s.chg d).counted - s.watts (s.chg d).granted else 0

/-- The pending reduction P (R161). -/
def State.pendingReduction (s : State) : Nat := (s.docksInUse.map s.dockReduction).sum

/-- State of charge of a dock's bike in an ordering: absent counts as 0 (R155). -/
def State.socOf (s : State) (d : DockId) : Nat := ((s.dock d).bike.map Bike.charge).getD 0

/-- A charge command asked for, unless it could replace a lowering command (CAPS, WAIT and REJECT, R152). -/
def State.askUnlessLowering (s : State) (d : DockId) (c : LineCommand) : State :=
  if s.lowering d then s else s.ask d c

/-- CHARGE_STOP is asked, and stop outstanding becomes yes (9.1). -/
def State.askStop (s : State) (d : DockId) : State :=
  let s1 := s.ask d .stop
  s1.setChg d { s1.chg d with stopOutstanding := true }

/-- A granted level raised: the counted allocation becomes the greater of its value and the level's wattage (R153). -/
def State.raiseGrant (s : State) (d : DockId) (l : Level) : State :=
  s.setChg d { s.chg d with granted := some l, counted := max (s.chg d).counted (s.watts (some l)) }

/-- A contract goes to ACTIVE at a level: the grant raised, then the command asked (R157, R158, R162). -/
def State.activate (s : State) (d : DockId) (l : Level) (c : LineCommand) : State :=
  let s1 := s.raiseGrant d l
  (s1.setChg d { s1.chg d with contract := some .active, requested := none, offerTime := none,
                               capsDelivered := false, answerDeadline := none }).ask d c

/-- The order of the grant pass: ascending state of charge, then lowest dock number (R155). -/
def State.passOrder (s : State) (ds : List DockId) : List DockId :=
  sortBy (fun a b => decide (s.socOf a < s.socOf b ∨ (s.socOf a = s.socOf b ∧ a.val < b.val))) ds

/-- The contracts of the grant pass in its order: TRIMMED ones on LINKED docks, then WAITING ones (R155). -/
def State.passList (s : State) : List DockId :=
  s.passOrder (s.docksInUse.filter (fun d => decide ((s.chg d).contract = some .trimmed) && s.linked d))
    ++ s.passOrder (s.docksInUse.filter (fun d => decide ((s.chg d).contract = some .waiting)))

/-- The grant pass over a list; it stops at the first contract for which the accept rule does not hold (R155). -/
def State.passOver (s : State) : List DockId → State
  | [] => s
  | d :: ds =>
    match (s.chg d).requested with
    | none => s.passOver ds
    | some l =>
      if s.acceptRule d l then
        (s.activate d l (if (s.chg d).contract = some .trimmed then .restore l else .accept l)).passOver ds
      else s

/-- The grant pass, made when latch-held does not hold (R155). -/
def State.grantPass (s : State) : State := if s.latchHeld then s else s.passOver s.passList

/-! ## Trims for the latch (9.5) -/

/-- The order of trims: highest counted allocation, higher state of charge, lower dock number (R161). -/
def State.trimOrder (s : State) (ds : List DockId) : List DockId :=
  sortBy (fun a b => decide ((s.chg b).counted < (s.chg a).counted
    ∨ ((s.chg a).counted = (s.chg b).counted ∧ (s.socOf b < s.socOf a
      ∨ (s.socOf a = s.socOf b ∧ a.val < b.val))))) ds

/-- The ACTIVE contracts that a trim can lower (R161). -/
def State.trimList (s : State) : List DockId :=
  s.trimOrder (s.docksInUse.filter (fun d =>
    decide ((s.chg d).contract = some .active) && s.linked d && decide (s.watts (some 0) < (s.chg d).counted)))

/-- One contract trimmed (R161). -/
def State.trimOne (s : State) (d : DockId) : State :=
  (s.setChg d { s.chg d with contract := some .trimmed, requested := (s.chg d).granted, granted := some 0 }).ask d (.trim 0)

/-- Trims until the pending reduction covers the shortfall (R161). -/
def State.trimOver (s : State) (shortfall : Int) (reduction : Nat) : List DockId → State
  | [] => s
  | d :: ds =>
    if shortfall ≤ reduction then s
    else (s.trimOne d).trimOver shortfall (reduction + ((s.chg d).counted - s.watts (some 0))) ds

/-- The head of the latch grant queue is tested: a free slot with H below P_latch asks for the shortfall to be covered
(R131, R161). A test that passes leads to LATCH_GRANT, a row of its own (log entry 4). -/
def State.testHead (s : State) : State :=
  if s.latchHeld && decide (s.headroom < s.cfg.params.pLatch) then
    s.trimOver (s.cfg.params.pLatch - s.headroom) s.pendingReduction s.trimList
  else s

/-- What follows a change of headroom, of latch-held or of the head: the head is tested, then the grant pass is made
(R131, R154, R155). -/
def settle (before after : State) : State :=
  let ended := before.latchHeld && !after.latchHeld
  let rose := decide (before.headroom < after.headroom)
  let head := decide (after.rel.grantQ.head? ≠ before.rel.grantQ.head?)
  let s1 := if ended || rose || head then after.testHead else after
  if ended || rose then s1.grantPass else s1

/-! ## Latch grant queue and pulses (R130 to R132) -/

/-- A dock leaves the latch grant queue; the docks behind it keep their order (R131). -/
def State.dequeue (s : State) (d : DockId) : State :=
  { s with rel := { s.rel with grantQ := s.rel.grantQ.filter (fun e => decide (e ≠ d)) } }

/-- A dock leaves the latch grant queue, and the head is tested if it has changed (R131). -/
def State.leaveGrantQueue (s : State) (d : DockId) : State := settle s (s.dequeue d)

/-- ALLOCATION_CLEAR (R130). -/
def State.allocationClear (s : State) (d : DockId) : State :=
  match s.relState d with
  | some r =>
    if (s.dock d).state = .claimed ∧ r.ready = false then
      let s1 := s.setRel d (some { r with ready := true })
      { s1 with rel := { s1.rel with grantQ := s1.rel.grantQ ++ [d] } }
    else s
  | none => s

/-- The allocation of a claimed dock is no longer clear (R130). -/
def State.allocationNotClear (s : State) (d : DockId) : State :=
  match s.relState d with
  | some r =>
    if (s.dock d).state = .claimed ∧ r.ready = true then (s.setRel d (some { r with ready := false })).dequeue d else s
  | none => s

/-- The claim test (R163). -/
def State.claimTest (s : State) (d : DockId) : State :=
  if (s.chg d).held ∧ (s.chg d).counted = 0 then s.allocationClear d else s

/-- A counted allocation changed; on a claimed dock the claim test follows, then the headroom is reported and the grant
pass made (R153, R154, R163; log entry 28). -/
def State.setCounted (s : State) (d : DockId) (n : Nat) : State :=
  let old := (s.chg d).counted
  if n = old then s
  else
    let s1 := s.setChg d { s.chg d with counted := n }
    settle s (if (s1.chg d).held then (if n = 0 then s1.allocationClear d
      else if old = 0 then s1.allocationNotClear d else s1) else s1)

/-- A latch pulse ends (R132). -/
def State.endPulse (s : State) (d : DockId) : State :=
  match s.relState d with
  | some r =>
    if r.pulse then
      let s1 := s.setRel d (some { r with pulse := false })
      settle s { s1 with rel := { s1.rel with pulses := s1.rel.pulses - 1 } }
    else s
  | none => s

/-! ## Contracts (9.2, 9.4) -/

/-- A contract opens in IDLE with offer time now on a DOCKED, LINKED dock with an ELECTRIC bike that has none (R151). -/
def State.openContract (s : State) (d : DockId) : State :=
  match (s.dock d).bike with
  | some b =>
    if b.kind = .electric ∧ (s.dock d).state = .docked ∧ s.linked d = true ∧ (s.chg d).contract = none then
      let s1 := s.toIdle d (some s.clock.ms)
      s1.setChg d { s1.chg d with held := false }
    else s
  | none => s

/-- A contract ends; CHARGE_STOP is asked where output may remain (R151). -/
def State.endContract (s : State) (d : DockId) : State :=
  if (s.chg d).contract = none then s
  else
    let s1 := s.setChg d { s.chg d with
      contract := none, granted := none, requested := none, offerTime := none, capsDelivered := false,
      answerDeadline := none }
    if s1.linked d && (decide (0 < (s1.chg d).counted) || s1.chargeBusy d) then s1.askStop d else s1

/-- An offer whose time has come: CHARGE_CAPS is asked and the contract is OFFERED, unless a lowering command is queued or
in flight (R156; log entry 14). -/
def State.offerIfDue (s : State) (d : DockId) : State :=
  match (s.chg d).contract, (s.chg d).offerTime with
  | some .idle, some t =>
    if (t ≤ s.clock.ms ∨ Config.maxMs ≤ s.clock.ms) ∧ s.lowering d = false then
      let s1 := s.ask d .caps
      s1.setChg d { s1.chg d with contract := some .offered, offerTime := none, capsDelivered := false,
                                  answerDeadline := none }
    else s
  | _, _ => s

/-- The Charge Controller is told that a dock is claimed (R163); ALLOCATION_CLEAR is reported by the claim test. -/
def State.chargeClaimed (s : State) (d : DockId) : State :=
  let s1 := s.setChg d { s.chg d with held := true }
  let s2 := match (s1.chg d).contract with
    | some .idle => s1.toIdle d none
    | some .offered => (s1.withdrawCaps d).toIdle d none
    | some .waiting => s1.toIdle d none
    | some .active | some .trimmed =>
      (s1.setChg d { s1.chg d with contract := some .stopping, granted := none, requested := none }).askStop d
    | _ => s1
  let s3 := if 0 < (s2.chg d).counted ∧ (s2.chg d).stopOutstanding = false then s2.askStop d else s2
  s3.claimTest d

/-- The Charge Controller is told that a dock's claim has ended or that it has left its claim (R164). -/
def State.chargeLeft (s : State) (d : DockId) : State :=
  let s1 := s.setChg d { s.chg d with held := false }
  if (s1.dock d).state = .docked ∧ s1.linked d = true then
    (if (s1.chg d).contract = some .idle then s1.setChg d { s1.chg d with offerTime := some s1.clock.ms } else s1)
  else s1.endContract d

/-- A contract is rejected: CHARGE_REJECT, and IDLE with its offer time an offer interval ahead (R157). -/
def State.rejectContract (s : State) (d : DockId) : State :=
  (s.askUnlessLowering d .reject).toIdle d (some (s.afterMs (1000 * s.cfg.params.offerInterval)))

/-- A contract goes to FULL, with its fields cleared (R160). -/
def State.toFull (s : State) (d : DockId) : State :=
  s.setChg d { s.chg d with
    contract := some .full, granted := none, requested := none, offerTime := none, capsDelivered := false,
    answerDeadline := none }

/-- No contract is WAITING or TRIMMED (R157, R159). -/
def State.noneQueued (s : State) : Bool :=
  s.docksInUse.all (fun d => decide ((s.chg d).contract ≠ some .waiting) && decide ((s.chg d).contract ≠ some .trimmed))

/-- A grant made outside the pass: the accept rule holds, no contract is WAITING or TRIMMED and latch-held does not hold
(R157, R159). -/
def State.mayGrant (s : State) (d : DockId) (l : Level) : Bool := s.acceptRule d l && s.noneQueued && !s.latchHeld

/-- A REQUEST in OFFERED with caps delivered (R157). -/
def State.answerRequest (s : State) (d : DockId) (l : Level) : State :=
  if s.neverFits l then s.rejectContract d
  else if s.mayGrant d l then s.activate d l (.accept l)
  else
    let s1 := s.setChg d { s.chg d with contract := some .waiting, requested := some l, capsDelivered := false,
                                        answerDeadline := none }
    s1.askUnlessLowering d .wait

/-- A new REQUEST in WAITING or TRIMMED (R158, R162). -/
def State.changeRequest (s : State) (d : DockId) (l : Level) : State :=
  if s.neverFits l then s.rejectContract d else s.setChg d { s.chg d with requested := some l }

/-- A new REQUEST in ACTIVE (R159). -/
def State.stepRequest (s : State) (d : DockId) (l g : Level) : State :=
  if l < g then (s.setChg d { s.chg d with granted := some l }).ask d (.accept l)
  else if g < l ∧ s.mayGrant d l = true then (s.raiseGrant d l).ask d (.accept l)
  else s

/-- A contract acts on a message; `isNew` as R152 says, `ownCaps` for the report of the transaction that completed the
contract's CHARGE_CAPS (R157). -/
def State.contractMessage (s : State) (d : DockId) (m : ChargeMessage) (isNew ownCaps : Bool) : State :=
  let c := s.chg d
  match c.contract with
  | none => s
  | some x =>
    if c.held then
      if isNew then
        match m with
        | .request _ => s.askUnlessLowering d .reject
        | .full => if x = .idle then s.toFull d else s
        | .none => s
      else s
    else
      match x with
      | .offered =>
        if c.capsDelivered && !ownCaps then
          match m with
          | .request l => s.answerRequest d l
          | .full => s.toFull d
          | .none => s
        else s
      | .idle => if isNew && decide (m = .full) then s.toFull d else s
      | .waiting =>
        if isNew then
          match m with
          | .request l => s.changeRequest d l
          | .full => s.toFull d
          | .none => s
        else s
      | .active =>
        if isNew then
          match m, c.granted with
          | .request l, some g => s.stepRequest d l g
          | .full, _ => (s.toFull d).askStop d
          | _, _ => s
        else s
      | .trimmed =>
        if isNew then
          match m with
          | .request l => s.changeRequest d l
          | .full => (s.toFull d).askStop d
          | .none => s
        else s
      | .stopping | .full => s

/-- A report's charge message is acted on and stored (R152). -/
def State.chargeMessage (s : State) (d : DockId) (m : ChargeMessage) (ownCaps : Bool) : State :=
  let s1 := s.contractMessage d m (decide ((s.chg d).lastMessage ≠ some m)) ownCaps
  s1.setChg d { s1.chg d with lastMessage := some m }

/-- What a settled report asks again or ends (R159, R160, R162). -/
def State.settledContract (s : State) (d : DockId) (applied : Option Level) : State :=
  match (s.chg d).contract, applied with
  | some .active, some a =>
    match (s.chg d).granted with
    | some g => if g < a then s.ask d (.accept g) else s
    | none => s
  | some .trimmed, some a => if 0 < a then s.ask d (.trim 0) else s
  | some .stopping, some _ => s.askStop d
  | some .stopping, none => s.toIdle d (if (s.chg d).held then none else some s.clock.ms)
  | _, _ => s

/-- Stray output is stopped (R165). -/
def State.stopStray (s : State) (d : DockId) (applied : Option Level) : State :=
  let c := s.chg d
  let stray := match c.contract with
    | none | some .idle | some .offered | some .waiting | some .full => true
    | _ => false
  if s.linked d && stray && decide (0 < c.counted) && applied.isSome && !c.stopOutstanding then s.askStop d else s

/-- A good report's applied level: the counted allocation raised by the report or lowered by a settled one, then what
follows from it (R153; log entry 12). -/
def State.chargeReport (s : State) (d : DockId) (applied : Option Level) (settled : Bool) : State :=
  let c := s.chg d
  if settled then
    let s1 := s.setChg d { c with stopOutstanding := false }
    let s2 := s1.setCounted d (max (s.watts c.granted) (s.watts applied))
    (s2.settledContract d applied).stopStray d applied
  else (s.setCounted d (max c.counted (s.watts applied))).stopStray d applied

/-- A judged state of charge below 95 ends FULL (R160). -/
def State.fullEnds (s : State) (d : DockId) : State :=
  match (s.dock d).bike with
  | some b =>
    if b.kind = .electric ∧ (s.chg d).contract = some .full ∧ b.charge < Config.fullBelow then
      s.toIdle d (if (s.chg d).held then none else some s.clock.ms)
    else s
  | none => s

/-! ## Rows -/

/-- CHARGE_OFFER: an IDLE contract's offer time is reached (R156). -/
def chargeOffer (d : DockId) (s : State) : State :=
  match (s.chg d).contract, (s.chg d).offerTime with
  | some .idle, some t =>
    match s.reached t with
    | some s1 => s1.offerIfDue d
    | none => s
  | _, _ => s

def execChargeOffer (d : DockId) (s : State) : Host.Outcome State Fault Refusal := .next (chargeOffer d s)

/-- CHARGE_ANSWER_DEADLINE: an OFFERED contract goes back to IDLE, an offer interval ahead (R157). -/
def chargeAnswerDeadline (d : DockId) (s : State) : State :=
  match (s.chg d).contract, (s.chg d).answerDeadline with
  | some .offered, some t =>
    match s.reached t with
    | some s1 => s1.toIdle d (some (s1.afterMs (1000 * s1.cfg.params.offerInterval)))
    | none => s
  | _, _ => s

def execChargeAnswerDeadline (d : DockId) (s : State) : Host.Outcome State Fault Refusal :=
  .next (chargeAnswerDeadline d s)

/-! ## View (R168) -/

/-- The milliseconds that remain to a deadline (R68, R110, R168). -/
def State.remaining (s : State) (t : Nat) : Nat := t - s.clock.ms

/-- The fields of Read Charge (R168; log entry 6). -/
def State.chargeBytes (s : State) (d : DockId) : List Byte :=
  let c := s.chg d
  be16 s.cfg.params.bTotal ++ be16 s.cfg.params.pLatch ++ be16 s.countedSum ++ be16 s.rel.pulses
    ++ beInt16 s.headroom ++ be16 s.pendingReduction ++ yesNo s.latchHeld
    ++ optCode ContractState.code c.contract ++ optLevel c.granted ++ optLevel c.requested ++ be16 c.counted
    ++ optLevel (s.dock d).applied ++ yesNo c.stopOutstanding ++ yesNo c.held
    ++ optMs ((match c.offerTime with | some t => some t | none => c.answerDeadline).map s.remaining)

/-- Read Charge (R168). -/
def readCharge (payload : List Byte) (s : State) : Answer :=
  match s.dockInUse? (fieldVal payload 0 1) with
  | none => refuse s .outOfRange
  | some d => answer s .done (s.chargeBytes d)

def execReadCharge (p : PortId) (s : State) : Host.Outcome State Fault Refusal :=
  .next (serve p 0x56 .operator (lengthIs 1) readCharge s)

end Sys2Proof.Machine
end

