-- ==== Sys2Proof/Machine/Reservations.lean ====
section
/-! DEFINITION. The Reservation Table (chapter 5), with the choice of a dock by kind (R81). -/

namespace Sys2Proof.Machine

/-! ## Choice by kind (R81, R129) -/

/-- Docked-since uptime of a dock's bike. -/
def State.sinceOf (s : State) (d : DockId) : Nat := ((s.dock d).bike.map Bike.since).getD 0

/-- State of charge of a dock's bike in an ordering, absent as 0 (R90). -/
def State.chargeOf (s : State) (d : DockId) : Nat := ((s.dock d).bike.map Bike.charge).getD 0

/-- A dock's bike is of a kind. -/
def State.hasKind (s : State) (k : BikeKind) (d : DockId) : Bool := decide ((s.dock d).bike.map Bike.kind = some k)

/-- The standard ordering: smallest docked-since uptime, then lowest dock number (R129). -/
def State.standardBefore (s : State) (a b : DockId) : Bool :=
  decide (s.sinceOf a < s.sinceOf b ∨ (s.sinceOf a = s.sinceOf b ∧ a.val < b.val))

/-- The electric ordering: highest state of charge, then the standard ordering (R129). -/
def State.electricBefore (s : State) (a b : DockId) : Bool :=
  decide (s.chargeOf b < s.chargeOf a) || (decide (s.chargeOf a = s.chargeOf b) && s.standardBefore a b)

/-- The ordering of a kind (R129). -/
def State.before (s : State) : BikeKind → DockId → DockId → Bool
  | .standard => s.standardBefore
  | .electric => s.electricBefore

/-- The dock chosen by kind among release-ready docks, without the release threshold (R81, R85). -/
def State.chooseByKind (s : State) (k : BikeKind) : Option DockId :=
  firstBy (s.before k) (s.docksInUse.filter (fun d => s.releaseReady d && s.hasKind k d))

/-! ## Entries (5.1) -/

/-- An entry is HELD. -/
def Reservation.isHeld (r : Reservation) : Bool := r.ended.isNone

/-- The HELD entry that carries a code (R78). -/
def heldEntry (rs : List Reservation) (code : Nat) : Option Reservation :=
  rs.find? (fun r => r.isHeld && decide (r.code = code))

/-- The HELD entry of a code changed; an ENDED entry with the same code is not touched. -/
def mapHeld (code : Nat) (f : Reservation → Reservation) (rs : List Reservation) : List Reservation :=
  rs.map (fun r => if r.isHeld && decide (r.code = code) then f r else r)

/-- A dock's held mark set or cleared (R79). -/
def State.setMark (s : State) (d : DockId) (code : Option Nat) : State := s.setDock d { s.dock d with heldBy := code }

/-- A HELD entry ends: its reason, the mark cleared, RESERVATION_CHANGED (R82, R83, R84, R87). -/
def State.endReservation (s : State) (code : Nat) (why : EndReason) : State :=
  match heldEntry s.resv code with
  | none => s
  | some e =>
    (({ s with resv := mapHeld code (fun r => { r with ended := some why }) s.resv }).setMark e.dock none).raiseFor
      .operator .reservationChanged

/-- A hold moves from a dock that ceases to qualify, or is lost (R85, R86). The old dock is out of the choice whatever its
record says. -/
def State.moveHold (s : State) (d : DockId) : State :=
  match (s.dock d).heldBy with
  | none => s
  | some code =>
    let s1 := s.setMark d none
    match heldEntry s.resv code with
    | none => s1
    | some e =>
      match firstBy (s1.before e.kind)
          (s1.docksInUse.filter (fun x => decide (x ≠ d) && (s1.releaseReady x && s1.hasKind e.kind x))) with
      | some x =>
        (({ s1 with resv := mapHeld code (fun r => { r with dock := x, moved := min (r.moved + 1) 255 }) s1.resv }).setMark
          x (some code)).raiseFor .operator .reservationChanged
      | none =>
        ({ s1 with resv := mapHeld code (fun r => { r with ended := some .lost }) s1.resv }).raiseFor
          .operator .reservationChanged

/-! ## Requests and expiry -/

/-- A Place Reservation's form and target that lie in their ranges (R80 test 2). -/
inductive PlaceTarget where
  | byDock (d : DockId)
  | byKind (k : BikeKind)
  deriving DecidableEq, Repr

/-- R80 test 2: the target of a Place Reservation, or none for a form, dock or kind outside its range. -/
def State.placeTarget (s : State) (form target : Byte) : Option PlaceTarget :=
  if form = 1 then (s.dockInUse? target.toNat).map .byDock
  else if form = 2 then (bikeKindOf? target).map .byKind
  else none

/-- R80 tests 5 and 6, and the choice of R81: the dock and the entry's bike kind, or the refusal. -/
def State.placeChoice (s : State) : PlaceTarget → Except Status (DockId × BikeKind)
  | .byDock d =>
    let k := s.dock d
    if k.heldBy.isSome || k.state.inRelease then .error .dockBusy
    else if s.releaseReady d then
      match k.bike with
      | some b => .ok (d, b.kind)
      | none => .error .noBike
    else .error .noBike
  | .byKind k =>
    match s.chooseByKind k with
    | some d => .ok (d, k)
    | none => .error .noBike

/-- Place Reservation (R80, R81). -/
def placeReservation (payload : List Byte) (s : State) : Answer :=
  let code := fieldVal payload 0 4
  let dur := fieldVal payload 4 2
  match s.placeTarget (byteAt payload 6) (byteAt payload 7) with
  | none => refuse s .outOfRange
  | some t =>
    if code = 0 ∨ dur < 60 ∨ 3600 < dur then refuse s .outOfRange
    else if (heldEntry s.resv code).isSome then refuse s .codeInUse
    else if Config.maxReservations ≤ s.resv.length then refuse s .tableFull
    else match s.placeChoice t with
      | .error st => refuse s st
      | .ok (d, k) =>
        let e : Reservation := { code := code, dock := d, kind := k, expiry := s.afterSeconds dur, ended := none, moved := 0 }
        answer (({ s with resv := s.resv ++ [e] }).setMark d (some code)) .done
          (be8 (dockNumber d) ++ [k.code] ++ be32 e.expiry)

def execPlaceReservation (p : PortId) (s : State) : Host.Outcome State Fault Refusal :=
  .next (serve p 0x40 .operator (lengthIs 8) placeReservation s)

/-- Cancel Reservation (R83). -/
def cancelReservation (payload : List Byte) (s : State) : Answer :=
  let code := fieldVal payload 0 4
  if code = 0 then refuse s .outOfRange
  else match heldEntry s.resv code with
    | none => refuse s .notFound
    | some e => answer (s.endReservation code .cancelled) .done (be8 (dockNumber e.dock))

def execCancelReservation (p : PortId) (s : State) : Host.Outcome State Fault Refusal :=
  .next (serve p 0x41 .operator (lengthIs 4) cancelReservation s)

/-- The fields of one entry in Read Reservations (R88; log entry 6). -/
def Reservation.bytes (r : Reservation) : List Byte :=
  be32 r.code ++ be8 (dockNumber r.dock) ++ [r.kind.code] ++ be32 r.expiry ++ [if r.isHeld then 1 else 2]
    ++ optCode EndReason.code r.ended ++ be16 r.moved

/-- Read Reservations (R88): the ENDED entries leave the table as they are returned. -/
def readReservations (_ : List Byte) (s : State) : Answer :=
  answer { s with resv := s.resv.filter Reservation.isHeld } .done
    (be16 s.resv.length ++ (s.resv.map Reservation.bytes).flatten)

def execReadReservations (p : PortId) (s : State) : Host.Outcome State Fault Refusal :=
  .next (serve p 0x42 .operator (lengthIs 0) readReservations s)

/-- The codes of the HELD entries whose expiry is reached (R84). -/
def State.expiredHolds (s : State) : List Nat :=
  (s.resv.filter (fun r => r.isHeld && decide (r.expiry ≤ s.uptime))).map Reservation.code

/-- RESERVATION_EXPIRY: every HELD entry whose expiry is reached ends EXPIRED (R84). -/
def reservationExpiry (s : State) : State :=
  closeEvent s (s.expiredHolds.foldl (fun x code => x.endReservation code .expired) s)

def execReservationExpiry (s : State) : Host.Outcome State Fault Refusal := .next (reservationExpiry s)

end Sys2Proof.Machine
end

