-- ==== Sys2Proof/Machine/Tokens.lean ====
section
/-! DEFINITION. The Token Store: key slots, revocation list and its loading, list changes, used-token table (chapter 3). -/

namespace Sys2Proof.Machine

/-! ## Key slots (3.1) -/

/-- The matching slot's key, CURRENT before NEXT; a slot not present takes no part (R44). -/
def slotKey (current next : KeySlot) (generation : Byte) : Option (List Byte) :=
  if current.present ∧ current.generation = generation then some current.key
  else if next.present ∧ next.generation = generation then some next.key
  else none

/-- Load Key (R42). -/
def loadKey (payload : List Byte) (s : State) : Answer :=
  let g := byteAt payload 0
  if s.tokens.current.present ∧ s.tokens.current.generation = g then refuse s .state
  else answer { s with tokens := { s.tokens with next := ⟨true, g, field payload 1 8⟩ } } .done [g]

def execLoadKey (p : PortId) (s : State) : Host.Outcome State Fault Refusal :=
  .next (serve p 0x21 .operator (lengthIs 9) loadKey s)

/-- Promote Key (R43). -/
def promoteKey (_ : List Byte) (s : State) : Answer :=
  if s.tokens.next.present then
    answer { s with tokens := { s.tokens with current := s.tokens.next, next := KeySlot.empty } } .done
      [s.tokens.next.generation]
  else refuse s .state

def execPromoteKey (p : PortId) (s : State) : Host.Outcome State Fault Refusal :=
  .next (serve p 0x22 .operator (lengthIs 0) promoteKey s)

/-! ## Active list (3.2.1) -/

/-- A serial lies in a range (R46). -/
def SerialRange.covers (r : SerialRange) (serial : Nat) : Bool := decide (r.low ≤ serial ∧ serial ≤ r.high)

/-- A serial is revoked (R47). -/
def revoked (active : List SerialRange) (serial : Nat) : Bool := active.any (fun r => r.covers serial)

/-- The form of a range list: low ≤ high, ascending, no overlap and no touch, from `lo` upward (R46). -/
def rangesFrom : Nat → List SerialRange → Bool
  | _, [] => true
  | lo, r :: rs => decide (lo ≤ r.low) && decide (r.low ≤ r.high) && rangesFrom (r.high + 2) rs

/-- What R52's table does with one serial. -/
inductive Insertion where
  | covered
  | changed (ranges : List SerialRange)
  | full
  deriving DecidableEq, Repr

/-- The ranges below a serial, and those above it. -/
def rangesBelow (active : List SerialRange) (serial : Nat) : List SerialRange :=
  active.filter (fun r => decide (r.high < serial))

def rangesAbove (active : List SerialRange) (serial : Nat) : List SerialRange :=
  active.filter (fun r => decide (serial < r.low))

/-- R52: the first case of its table that applies. -/
def insertSerial (active : List SerialRange) (serial : Nat) : Insertion :=
  if revoked active serial then .covered
  else
    let below := rangesBelow active serial
    let above := rangesAbove active serial
    match below.getLast?, above.head? with
    | some b, some a =>
      if b.high + 1 = serial ∧ serial + 1 = a.low then .changed (below.dropLast ++ ⟨b.low, a.high⟩ :: above.tail)
      else if b.high + 1 = serial then .changed (below.dropLast ++ ⟨b.low, serial⟩ :: above)
      else if serial + 1 = a.low then .changed (below ++ ⟨serial, a.high⟩ :: above.tail)
      else if active.length < Config.maxRanges then .changed (below ++ ⟨serial, serial⟩ :: above)
      else .full
    | some b, none =>
      if b.high + 1 = serial then .changed (below.dropLast ++ [⟨b.low, serial⟩])
      else if active.length < Config.maxRanges then .changed (below ++ [⟨serial, serial⟩])
      else .full
    | none, some a =>
      if serial + 1 = a.low then .changed (⟨serial, a.high⟩ :: above.tail)
      else if active.length < Config.maxRanges then .changed (⟨serial, serial⟩ :: above)
      else .full
    | none, none => .changed [⟨serial, serial⟩]

/-! ## Loading a new list (3.2.2) -/

/-- Begin Revocation Load (R48). In COMMITTING an announced count above 1,024 is answered OUT_OF_RANGE, not STATE (DESIGN
CHOICE, log entry 44). -/
def beginLoad (payload : List Byte) (s : State) : Answer :=
  let n := fieldVal payload 1 2
  if Config.maxRanges < n then refuse s .outOfRange
  else match s.tokens.load with
    | .committing _ => refuse s .state
    | _ => refuse { s with tokens := { s.tokens with load := .opened ⟨byteAt payload 0, n, []⟩ } } .done

def execBeginRevocationLoad (p : PortId) (s : State) : Host.Outcome State Fault Refusal :=
  .next (serve p 0x23 .operator (lengthIs 3) beginLoad s)

/-- The ranges carried by Add Revocation Ranges (12.3). -/
def carriedRanges (payload : List Byte) (n : Nat) : List SerialRange :=
  (List.range n).map (fun k => ⟨fieldVal payload (1 + 8 * k) 4, fieldVal payload (5 + 8 * k) 4⟩)

/-- The carried ranges tested one by one and appended; the first that fails gives its answer (R49). -/
def addRanges (announced : Nat) : List SerialRange → List SerialRange → Except Status (List SerialRange)
  | have_, [] => .ok have_
  | have_, r :: rs =>
    if r.high < r.low ∨ (have_.getLast?.any (fun l => decide (r.low ≤ l.high + 1))) then .error .order
    else if announced ≤ have_.length then .error .count
    else addRanges announced (have_ ++ [r]) rs

/-- Add Revocation Ranges (R49). In NONE or COMMITTING a range count outside 1..8 is answered OUT_OF_RANGE, not STATE (DESIGN
CHOICE, log entry 44). -/
def addRevocationRanges (payload : List Byte) (s : State) : Answer :=
  let n := (byteAt payload 0).toNat
  if n < 1 ∨ 8 < n then refuse s .outOfRange
  else match s.tokens.load with
    | .opened l =>
      match addRanges l.announced l.ranges (carriedRanges payload n) with
      | .ok rs => answer { s with tokens := { s.tokens with load := .opened { l with ranges := rs } } } .done (be16 rs.length)
      | .error st => refuse { s with tokens := { s.tokens with load := .none } } st
    | _ => refuse s .state

def execAddRevocationRanges (p : PortId) (s : State) : Host.Outcome State Fault Refusal :=
  .next (serve p 0x24 .operator addRangesLength addRevocationRanges s)

/-- Commit Revocation Load (R50): its response is withheld until the replacement ends. -/
def commitLoad (p : PortId) (_ : List Byte) (s : State) : Answer :=
  match s.tokens.load with
  | .opened l =>
    if l.ranges.length < l.announced then refuse s .incomplete
    else ⟨{ s with tokens := { s.tokens with load := .committing l, changes := s.tokens.changes ++ [.replacement p] } }, none⟩
  | _ => refuse s .state

def execCommitRevocationLoad (p : PortId) (s : State) : Host.Outcome State Fault Refusal :=
  .next (serve p 0x25 .operator (lengthIs 0) (commitLoad p) s)

/-- Abandon Revocation Load (R51). -/
def abandonLoad (_ : List Byte) (s : State) : Answer :=
  match s.tokens.load with
  | .opened _ => refuse { s with tokens := { s.tokens with load := .none } } .done
  | _ => refuse s .state

def execAbandonRevocationLoad (p : PortId) (s : State) : Host.Outcome State Fault Refusal :=
  .next (serve p 0x26 .operator (lengthIs 0) abandonLoad s)

/-- Revoke Serial (R52): a list change, whose response waits for the insertion. -/
def revokeSerial (p : PortId) (payload : List Byte) (s : State) : Answer :=
  let n := fieldVal payload 0 4
  if n = 0 then refuse s .outOfRange
  else ⟨{ s with tokens := { s.tokens with changes := s.tokens.changes ++ [.insertion p n] } }, none⟩

def execRevokeSerial (p : PortId) (s : State) : Host.Outcome State Fault Refusal :=
  .next (serve p 0x27 .operator (lengthIs 4) (revokeSerial p) s)

/-! ## List changes (R50, R52, R53) -/

/-- REVOCATION_REPLACEMENT_START: the oldest list change is a replacement and no admission is in progress (R50, R53). -/
def replacementStart (s : State) : State :=
  match s.tokens.changes with
  | .replacement _ :: _ =>
    if s.pres.admission = none ∧ s.tokens.replacing = false then { s with tokens := { s.tokens with replacing := true } }
    else s
  | _ => s

def execRevocationReplacementStart (s : State) : Host.Outcome State Fault Refusal := .next (replacementStart s)

/-- REVOCATION_REPLACEMENT_END: in one step the loading list becomes the active list, and the Commit response completes
(R50). -/
def replacementEnd (s : State) : State :=
  match s.tokens.changes, s.tokens.load with
  | .replacement p :: rest, .committing l =>
    if s.tokens.replacing then
      ({ s with tokens := { s.tokens with
          active := l.ranges, activeGen := l.generation, load := .none, changes := rest, replacing := false } }).respond p
        ⟨.done, [l.generation] ++ be16 l.ranges.length⟩
    else s
  | _, _ => s

def execRevocationReplacementEnd (s : State) : Host.Outcome State Fault Refusal := .next (replacementEnd s)

/-- REVOKE_SERIAL_INSERTION: the oldest list change is an insertion and no admission is in progress (R52, R53). -/
def serialInsertion (s : State) : State :=
  match s.tokens.changes with
  | .insertion p serial :: rest =>
    if s.pres.admission = none then
      let s1 := { s with tokens := { s.tokens with changes := rest } }
      match insertSerial s.tokens.active serial with
      | .covered => s1.respond p ⟨.done, yesNo true ++ be16 s.tokens.active.length⟩
      | .changed rs => ({ s1 with tokens := { s1.tokens with active := rs } }).respond p
          ⟨.done, yesNo false ++ be16 rs.length⟩
      | .full => s1.respond p ⟨.listFull, []⟩
    else s
  | _ => s

def execRevokeSerialInsertion (s : State) : Host.Outcome State Fault Refusal := .next (serialInsertion s)

/-! ## Used-token table (3.3) -/

/-- An entry is FINAL. -/
def UsedEntry.isFinal (e : UsedEntry) : Bool :=
  match e.state with
  | .final .. => true
  | .tentative .. => false

/-- A FINAL entry whose expiry has been reached (R62). -/
def UsedEntry.expired (now : Nat) (e : UsedEntry) : Bool := e.isFinal && decide (e.expiry ≤ now)

/-- An entry is TENTATIVE and owned by a tag. -/
def UsedEntry.ownedBy (tag : Byte) (e : UsedEntry) : Bool :=
  match e.state with
  | .tentative o _ => decide (o = tag)
  | .final .. => false

/-- The entry for a serial (R55). -/
def usedOf (used : List UsedEntry) (serial : Nat) : Option UsedEntry := used.find? (fun e => decide (e.serial = serial))

def State.setUsed (s : State) (u : List UsedEntry) : State := { s with tokens := { s.tokens with used := u } }

/-- The purge of expired FINAL entries (R62). -/
def State.purgeUsed (s : State) : State := s.setUsed (s.tokens.used.filter (fun e => !e.expired s.uptime))

/-- A TENTATIVE entry inserted (R56, R57). -/
def State.insertTentative (s : State) (serial expiry : Nat) (tag : Byte) (credit : Nat) : State :=
  s.setUsed (s.tokens.used ++ [⟨serial, expiry, .tentative tag credit⟩])

/-- The expiry of a tag's TENTATIVE entry replaced at an approval (R57). -/
def State.replaceExpiry (s : State) (tag : Byte) (expiry : Nat) : State :=
  s.setUsed (s.tokens.used.map (fun e => if e.ownedBy tag then { e with expiry := expiry } else e))

/-- The TENTATIVE entry of a serial that a tag owns is removed (R60). -/
def State.removeTentative (s : State) (serial : Nat) (tag : Byte) : State :=
  s.setUsed (s.tokens.used.filter (fun e => !(decide (e.serial = serial) && e.ownedBy tag)))

/-- A tag's TENTATIVE entry becomes FINAL (R58). -/
def State.finalise (s : State) (tag : Byte) (bike : Option Nat) (d : DockId) (offline : Bool) (cost : Nat) : State :=
  s.setUsed (s.tokens.used.map (fun e =>
    if e.ownedBy tag then
      { e with expiry := max e.expiry (s.afterSeconds s.cfg.params.bounceWindow),
               state := .final bike d s.uptime offline cost }
    else e))

/-- The removal uptime of a FINAL entry of a bike. -/
def UsedEntry.removalOf (bike : Nat) (e : UsedEntry) : Option Nat :=
  match e.state with
  | .final b _ r _ _ => if b = some bike then some r else none
  | .tentative .. => none

/-- The bounce query: the FINAL entry of a bike with the latest removal uptime (R61); of several with that uptime, the one
inserted first (DESIGN CHOICE, log entry 45). -/
def bounceQuery (used : List UsedEntry) (bike : Nat) : Option UsedEntry :=
  firstBy (fun a b => decide ((b.removalOf bike).getD 0 < (a.removalOf bike).getD 0))
    (used.filter (fun e => (e.removalOf bike).isSome))

/-- The bounce rule for a bike with a number: whether the return is a bounce, and the state after it (R149). -/
def State.bounce (s : State) (bike : Nat) : Bool × State :=
  if s.cfg.params.bounceWindow = 0 then (false, s)
  else match bounceQuery s.tokens.used bike with
    | none => (false, s)
    | some e =>
      match e.state with
      | .final _ _ removal offline cost =>
        if s.uptime - removal ≤ s.cfg.params.bounceWindow then
          let s1 := s.setUsed (s.tokens.used.filter (fun x => decide (x ≠ e)))
          (true, if offline then s1.addCredit cost else s1)
        else (false, s)
      | .tentative .. => (false, s)

/-- USED_TOKEN_EXPIRY: the purge of a second boundary (R62). -/
def usedTokenExpiry (s : State) : State := s.purgeUsed

def execUsedTokenExpiry (s : State) : Host.Outcome State Fault Refusal := .next (usedTokenExpiry s)

/-- The fields of a used-token entry in Read Used Token (R64; log entry 6). A presentation's bike always has a number
(R172), so the bike number of a FINAL entry is no field that may be absent (R198). -/
def UsedEntry.bytes (e : UsedEntry) : List Byte :=
  match e.state with
  | .tentative o _ => [1] ++ be32 e.expiry ++ [o]
  | .final b d r off cost => [2] ++ be32 e.expiry ++ be24 (b.getD 0) ++ be8 (dockNumber d) ++ be32 r ++ yesNo off ++ be16 cost

/-- Read Used Token (R64). -/
def readUsedToken (payload : List Byte) (s : State) : Answer :=
  let n := fieldVal payload 0 4
  if n = 0 then refuse s .outOfRange
  else match usedOf s.tokens.used n with
    | none => refuse s .notFound
    | some e => if e.expired s.uptime then refuse s .notFound else answer s .done e.bytes

def execReadUsedToken (p : PortId) (s : State) : Host.Outcome State Fault Refusal :=
  .next (serve p 0x28 .operator (lengthIs 4) readUsedToken s)

end Sys2Proof.Machine
end

