-- ==== Sys2Proof/Machine/Docks.lean ====
section
/-! DEFINITION. The Dock Table's own transitions: bike parts, records, faults, the counting of reports (R89 to R102), and
the requests of chapter 6. -/

namespace Sys2Proof.Machine

/-! ## Contents (6.2) -/

/-- The bike kind of a bike code; none for another contact code (6.2). -/
def ContactCode.bikeKind : ContactCode → Option BikeKind
  | .standardBike => some .standard
  | .electricBike => some .electric
  | _ => none

/-- Two reports match (R91). -/
def Contents.same (a b : Contents) : Bool :=
  decide (a = b) || (decide (a.code = .noBike) && decide (b.code = .noBike))

/-- The bike number of a tag status, absent unless it is OK. -/
def TagStatus.number : TagStatus → Option Nat
  | .ok n => some n
  | _ => Option.none

/-- The threshold at which a candidate is confirmed (R91). -/
def Params.confirmAt (p : Params) (c : Contents) : Nat := if c.code = .noBike then p.pGone else p.pConf

/-- One judged report without SHORT weighed against picture and candidate: the record and the contents confirmed, if any
(R91). -/
def Dock.weigh (k : Dock) (p : Params) (c : Contents) : Dock × Option Contents :=
  if k.picture.any (fun x => x.same c) then ({ k with candidate := none, count := 0 }, none)
  else
    let cand := match k.candidate with
      | some x => if x.same c then x else c
      | none => c
    let n := if k.candidate.any (fun x => x.same c) then k.count + 1 else 1
    if p.confirmAt cand ≤ n then ({ k with picture := some cand, candidate := none, count := 0 }, some cand)
    else ({ k with candidate := some cand, count := n }, none)

/-! ## Bike part and records (R94, R95) -/

/-- A bike part as R94 sets it. -/
def State.newBike (s : State) (kind : BikeKind) (number : Option Nat) (soc : Option Nat) : Bike :=
  { kind := kind, number := number, since := s.uptime, sinceStation := s.recordable,
    soc := if kind = .electric then soc else none }

/-- A bike set as the confirmed bike of a dock, for a bike code and its tag. -/
def State.setBike (s : State) (d : DockId) (c : Contents) (soc : Option Nat) : State :=
  match c.code.bikeKind with
  | some k => s.setDock d { s.dock d with bike := some (s.newBike k c.tag.number soc), alarm := false }
  | none => s

/-- The bike number a dock holds, when present. -/
def State.heldNumber (s : State) (d : DockId) : Option Nat := (s.dock d).bike.bind Bike.number

/-- A trip record with the times of its production (R95, R170). -/
def State.tripRecord (s : State) (kind : RecordKind) (d : DockId) (bike serial : Option Nat) : TripRecord :=
  { kind := kind, dock := d, bike := bike, serial := serial, uptime := s.uptime, station := s.recordable,
    offline := false, late := false, unobserved := false, bounce := false, found := false }

/-- An ANOMALY for the bike that a dock held, with the last claim serial when present (R95). -/
def State.anomaly (s : State) (d : DockId) (bike : Option Nat) : State :=
  s.handOver (s.tripRecord .anomaly d bike (s.dock d).lastSerial)

/-- A confirmed bike's bounce rule and RETURN record (R94, R95, R149). -/
def State.recordReturn (s : State) (d : DockId) (bike : Option Nat) (found : Bool) : State :=
  let out := match bike with
    | some n => s.bounce n
    | none => (false, s)
  out.2.handOver { out.2.tripRecord .bikeReturn d bike none with bounce := out.1, found := found }

/-! ## Entering states -/

/-- A dock enters FAULT (R101): cause, candidate, DOCK_FAULT, contract, and the hold of a dock that left DOCKED (R85). -/
def State.enterFault (s : State) (d : DockId) (cause : FaultCause) : State :=
  let s1 := s.setDock d { s.dock d with
    state := .fault, faultCause := some cause, candidate := none, count := 0, owner := none, deadline := none }
  ((s1.raiseFor .operator .dockFault).endContract d).moveHold d

/-- A dock enters EMPTY with the picture NO_BIKE and the bike part cleared (R93, R98, R138). Candidate and count are cleared
with them, at a release resolved as taken while the link is LOST too, where R138 and R146 are silent on them (DESIGN CHOICE,
log entry 50). -/
def State.enterEmpty (s : State) (d : DockId) : State :=
  s.setDock d { s.dock d with
    state := .empty, picture := some ⟨.noBike, .none⟩, candidate := none, count := 0, bike := none, alarm := false,
    owner := none, deadline := none }

/-- The alarm of an unidentified bike in DOCKED: DOCK_FAULT once (R96; log entry 38). -/
def State.identityAlarm (s : State) (d : DockId) : State :=
  if s.heldNumber d = none ∧ (s.dock d).alarm = false then
    (s.setDock d { s.dock d with alarm := true }).raiseFor .operator .dockFault
  else s

/-- A dock enters DOCKED with the bike part it holds (R92, R94, R140, R142), and a contract opens where it may (R151). -/
def State.enterDocked (s : State) (d : DockId) : State :=
  let s1 := s.setDock d { s.dock d with state := .docked, owner := none, deadline := none }
  (s1.identityAlarm d).openContract d

/-- LATCH_CLOSE is asked for and a relock deadline is set (R139, R142, R145). -/
def State.startRelock (s : State) (d : DockId) : State :=
  let s1 := s.ask d .latchClose
  s1.setDock d { s1.dock d with state := .relock, deadline := some (s1.afterMs (1000 * s1.cfg.params.relockTime)) }

/-- A dock enters RELOCK without a claim owner, with a new release state; the close starts while the dock is LINKED
(R142). -/
def State.unownedRelock (s : State) (d : DockId) : State :=
  let s1 := (s.setDock d { s.dock d with state := .relock, owner := none, deadline := none }).setRel d (some .fresh)
  if s1.linked d then s1.startRelock d else s1

/-- A dock enters FAULT as the DOCKED rule for a cause states, with the records that the rule writes (R97, R99, R100). -/
def State.faultBy (s : State) (d : DockId) (cause : FaultCause) (c : Contents) (soc : Option Nat) : State :=
  if cause = .tagMismatch then
    let old := s.heldNumber d
    let s1 := (s.enterFault d .tagMismatch).anomaly d old
    (s1.setBike d c soc).recordReturn d c.tag.number true
  else s.enterFault d cause

/-! ## What each state does with confirmed contents -/

/-- The fault cause that DOCKED contents raise, none for a steady identity, a removal or an identity change (R99, R100,
R104). -/
def contactFault? (b : Bike) (c : Contents) : Option FaultCause :=
  match c.code with
  | .noBike => none
  | .short => some .short
  | code =>
    if code.bikeKind ≠ some b.kind then some .misseated
    else match c.tag with
      | .conflict => some .tagConflict
      | .none => none
      | .ok n => if b.number.isSome ∧ b.number ≠ some n then some .tagMismatch else none

/-- An UNKNOWN dock's confirmation (R92). -/
def State.learn (s : State) (d : DockId) (c : Contents) (latch : LatchPosition) (soc : Option Nat) : State :=
  let k := s.dock d
  let s1 := s.setDock d { k with interrupted := false }
  match c.code with
  | .noBike => (if k.interrupted then s1.anomaly d none else s1).enterEmpty d
  | .misseated => s1.enterFault d .misseated
  | .short => s1.enterFault d .short
  | _ =>
    let s2 := s1.setBike d c soc
    if c.tag = .conflict then s2.enterFault d .tagConflict
    else if latch = .closed then s2.enterDocked d
    else s2.unownedRelock d

/-- An ARRIVING dock's confirmation (R93, R94). -/
def State.arrive (s : State) (d : DockId) (c : Contents) (latch : LatchPosition) (soc : Option Nat) : State :=
  match c.code with
  | .noBike => s.enterEmpty d
  | .misseated => s.enterFault d .misseated
  | .short => s.enterFault d .short
  | _ =>
    let s1 := (s.setBike d c soc).recordReturn d c.tag.number false
    if c.tag = .conflict then s1.enterFault d .tagConflict
    else if latch = .closed then s1.enterDocked d
    else s1.unownedRelock d

/-- The identity of a dock's bike changed (R96, R102). -/
def State.setNumber (s : State) (d : DockId) (n : Option Nat) : State :=
  match (s.dock d).bike with
  | some b => s.setDock d { s.dock d with bike := some { b with number := n }, alarm := (s.dock d).alarm && n.isNone }
  | none => s

/-- A DOCKED dock's confirmation (R96, R98, R99, R100). -/
def State.dockedConfirm (s : State) (d : DockId) (c : Contents) (soc : Option Nat) : State :=
  match (s.dock d).bike with
  | none => s
  | some b =>
    if c.code = .noBike then (((s.anomaly d b.number).enterEmpty d).endContract d).moveHold d
    else match contactFault? b c with
      | some cause => s.faultBy d cause c soc
      | none =>
        match c.tag with
        | .none => if b.number.isSome then ((s.setNumber d none).identityAlarm d).moveHold d else s
        | .ok n => s.setNumber d (some n)
        | .conflict => s

/-- A FAULT or OUT_OF_SERVICE dock's confirmation (R102). -/
def State.outOfUseConfirm (s : State) (d : DockId) (c : Contents) (soc : Option Nat) : State :=
  match c.code.bikeKind with
  | none =>
    if c.code = .noBike then s.setDock d { s.dock d with bike := none, alarm := false } else s
  | some kind =>
    if c.tag = .conflict then s
    else
      let another := match (s.dock d).bike with
        | none => true
        | some b => decide (b.kind ≠ kind) || (b.number.isSome && c.tag.number.isSome && decide (b.number ≠ c.tag.number))
      if another then (s.setBike d c soc).recordReturn d c.tag.number true else s.setNumber d c.tag.number

/-! ## Requests of chapter 6 -/

/-- A dock cleared to UNKNOWN by Clear Fault or Set Dock Service IN (R106, R107). -/
def State.clearToUnknown (s : State) (d : DockId) : State :=
  s.setDock d { s.dock d with
    state := .unknown, faultCause := none, picture := none, candidate := none, count := 0, bike := none, alarm := false,
    interrupted := false }

/-- Clear Fault (R106). -/
def clearFault (payload : List Byte) (s : State) : Answer :=
  match s.dockInUse? (fieldVal payload 0 1) with
  | none => refuse s .outOfRange
  | some d => if (s.dock d).state = .fault then refuse (s.clearToUnknown d) .done else refuse s .state

def execClearFault (p : PortId) (s : State) : Host.Outcome State Fault Refusal :=
  .next (serve p 0x50 .operator (lengthIs 1) clearFault s)

/-- A dock goes OUT_OF_SERVICE (R107): a hold moves (R85) and a contract ends (R151). -/
def State.takeOut (s : State) (d : DockId) : State :=
  ((s.setDock d { s.dock d with
      state := .outOfService, faultCause := none, candidate := none, count := 0, interrupted := false }).endContract d).moveHold d

/-- Set Dock Service (R107). -/
def setDockService (payload : List Byte) (s : State) : Answer :=
  let v := byteAt payload 1
  match s.dockInUse? (fieldVal payload 0 1) with
  | none => refuse s .outOfRange
  | some d =>
    let st := (s.dock d).state
    if v = 1 then
      if st.inRelease then refuse s .dockBusy
      else if st = .outOfService then refuse s .done
      else refuse (s.takeOut d) .done
    else if v = 2 then
      if st = .outOfService then refuse (s.clearToUnknown d) .done else refuse s .state
    else refuse s .outOfRange

def execSetDockService (p : PortId) (s : State) : Host.Outcome State Fault Refusal :=
  .next (serve p 0x51 .operator (lengthIs 2) setDockService s)

/-- The fields of Read Dock that both roles see (R110). -/
def State.dockPublic (s : State) (d : DockId) : List Byte :=
  let k := s.dock d
  be8 (dockNumber d) ++ [k.state.code, (s.lamp d).code] ++ optCode BikeKind.code (k.bike.map Bike.kind)
    ++ optSoc (k.bike.bind Bike.soc) ++ yesNo (s.releaseReady d) ++ yesNo (s.counted d)

/-- A claim owner: a kind, 1 tag or 2 SERVICE, then the tag (12.8). -/
def ownerBytes : Option Owner → List Byte
  | some (.tag t) => [1, t]
  | some .service => [2, 0]
  | none => [0, 0]

/-- The fields of Read Dock that an OPERATOR port sees besides (R110; log entry 6). -/
def State.dockPrivate (s : State) (d : DockId) : List Byte :=
  let k := s.dock d
  optCode FaultCause.code k.faultCause ++ [(s.link d).state.code] ++ optCode LatchPosition.code k.latch ++ optLevel k.applied
    ++ optBike (k.bike.bind Bike.number) ++ present be32 (be32 0) (k.bike.map Bike.since)
    ++ present be32 (be32 0) (k.bike.bind Bike.sinceStation)
    ++ ownerBytes k.owner ++ optSerial k.heldBy ++ optMs (k.deadline.map s.remaining) ++ be16 k.attempts
    ++ optSerial k.lastSerial ++ yesNo k.interrupted ++ yesNo k.alarm
    ++ yesNo k.owed.isSome ++ optCode RecordKind.code (k.owed.map TripRecord.kind)
    ++ optCode ContactCode.code (k.candidate.map Contents.code) ++ be16 k.count

/-- Read Dock (R110). -/
def readDock (p : PortId) (payload : List Byte) (s : State) : Answer :=
  match s.dockInUse? (fieldVal payload 0 1) with
  | none => refuse s .outOfRange
  | some d =>
    answer s .done (s.dockPublic d ++ (if (s.port p).role = some .operator then s.dockPrivate d else []))

def execReadDock (p : PortId) (s : State) : Host.Outcome State Fault Refusal :=
  .next (serve p 0x52 .both (lengthIs 1) (readDock p) s)

/-- Read Dock Summary (R111). -/
def readDockSummary (_ : List Byte) (s : State) : Answer :=
  answer s .done (be16 (s.eligibleCount .standard) ++ be16 (s.eligibleCount .electric) ++ be16 (s.countState .empty)
    ++ be16 (s.countState .fault) ++ be16 (s.countState .outOfService))

def execReadDockSummary (p : PortId) (s : State) : Host.Outcome State Fault Refusal :=
  .next (serve p 0x53 .both (lengthIs 0) readDockSummary s)

end Sys2Proof.Machine
end

