-- ==== Sys2Proof/Machine/Presentations.lean ====
section
/-! DEFINITION. The presentation table, results, rollback, Present Token and Read Result (1.2, 1.3, 1.6, 1.7). -/

namespace Sys2Proof.Machine

/-! ## Entries (1.2) -/

/-- The entry of a tag (R3). -/
def State.entry (s : State) (tag : Byte) : Option Entry := s.pres.entries.find? (fun e => decide (e.tag = tag))

/-- An entry changed. -/
def State.mapEntry (s : State) (tag : Byte) (f : Entry → Entry) : State :=
  { s with pres := { s.pres with entries := s.pres.entries.map (fun e => if e.tag = tag then f e else e) } }

/-- An entry leaves the table; the entries behind it keep their order (R3). -/
def State.dropEntry (s : State) (tag : Byte) : State :=
  { s with pres := { s.pres with entries := s.pres.entries.filter (fun e => decide (e.tag ≠ tag)) } }

/-- The owed-result count (R20). -/
def owedTotal (es : List Entry) : Nat := (es.map Entry.owed).sum

/-- The first entry of a tag gives one owed unit. -/
def takeUnit (tag : Byte) : List Entry → List Entry
  | [] => []
  | e :: es => if e.tag = tag then { e with owed := e.owed - 1 } :: es else e :: takeUnit tag es

/-! ## Results (1.6) -/

/-- A result moves one owed unit of its entry into the result queue and raises RESULT_READY (R20; log entry 24). -/
def State.produce (s : State) (r : Result) : State :=
  match s.entry r.tag with
  | none => s
  | some e =>
    if e.owed = 0 then s
    else ({ s with pres := { s.pres with entries := takeUnit r.tag s.pres.entries, results := s.pres.results ++ [r] } }).raiseFor
      .rider .resultReady

/-- A result without flags. -/
def plainResult (tag : Byte) (kind : ResultKind) (outcome : Option ResultOutcome) (reason : Option Reason)
    (dock : Option DockId) (bike : Option Nat) : Result :=
  { tag := tag, kind := kind, outcome := outcome, reason := reason, dock := dock, bike := bike, late := false,
    unobserved := false }

/-- A FINAL result: its unit goes into the queue, the remaining units are released and the entry leaves (R20, R21). -/
def State.finish (s : State) (r : Result) : State := (s.produce r).dropEntry r.tag

/-- FINAL REFUSED with a reason (R15, R71, R74, R76). -/
def State.finishRefused (s : State) (tag : Byte) (why : Reason) : State :=
  s.finish (plainResult tag .final (some .refused) (some why) none none)

/-- FINAL FAILED with a reason and the dock of the last attempt (R19). -/
def State.finishFailed (s : State) (tag : Byte) (why : Reason) (d : Option DockId) : State :=
  s.finish (plainResult tag .final (some .failed) (some why) d none)

/-! ## Rollback (1.7) -/

/-- A claim is removed from a dock record, which leaves the grant queue (R23 dock step). -/
def State.removeClaim (s : State) (tag : Byte) (d : DockId) : State :=
  let s1 := if (s.dock d).owner = some (.tag tag) then s.setDock d { s.dock d with owner := none } else s
  s1.leaveGrantQueue d

/-- Rollback of a live presentation (R23). -/
def State.rollback (s : State) (tag : Byte) : State :=
  match s.entry tag with
  | none => s
  | some e =>
    let s1 := s.addCredit e.creditCharged
    let s2 := s1.removeTentative e.summary.serial tag
    let s3 := if e.slotReserved then s2.releaseSlot else s2
    let s4 := match e.dock with
      | some d => s3.removeClaim tag d
      | none => s3
    let s5 := match e.referral with
      | some id => { s4 with refs := { s4.refs with opened := s4.refs.opened.filter (fun r => decide (r.id ≠ id)) } }
      | none => s4
    s5.mapEntry tag (fun x => { x with creditCharged := 0, slotReserved := false, dock := none, referral := none })

/-! ## Requests -/

/-- The entry that Present Token creates (R6). -/
def newEntry (tag : Byte) (t : Token) : Entry :=
  { tag := tag, summary := t.summary, token := some t, stage := .queued, dock := none, alternateUsed := false,
    reserved := false, creditCharged := 0, slotReserved := false, referral := none, offline := false,
    owed := Config.unitsOwed }

/-- Present Token (R5, R6). -/
def presentToken (payload : List Byte) (s : State) : Answer :=
  let tag := byteAt payload 0
  if (s.entry tag).isSome then refuse s .tagInUse
  else if Config.maxEntries ≤ s.pres.entries.length then refuse s .presentationsFull
  else if Config.maxResults < s.pres.results.length + owedTotal s.pres.entries + Config.unitsOwed then
    refuse s .resultsFull
  else answer { s with pres := { s.pres with
    entries := s.pres.entries ++ [newEntry tag (tokenOfBytes (payload.drop 1))] } } .done [tag]

def execPresentToken (p : PortId) (s : State) : Host.Outcome State Fault Refusal :=
  .next (serve p 0x10 .rider (lengthIs 25) presentToken s)

/-- Read Result (R22). -/
def readResult (_ : List Byte) (s : State) : Answer :=
  match s.pres.results with
  | [] => refuse s .empty
  | r :: rs => answer { s with pres := { s.pres with results := rs } } .done r.bytes

def execReadResult (p : PortId) (s : State) : Host.Outcome State Fault Refusal :=
  .next (serve p 0x11 .rider (lengthIs 0) readResult s)

end Sys2Proof.Machine
end

