-- ==== Sys2Proof/Machine/Release.lean ====
section
/-! DEFINITION. The Release Controller: selection, claims, the latch grant, the release stages and their endings, and
Service Release (chapter 8). -/

namespace Sys2Proof.Machine

/-! ## Selection (8.1) -/

/-- The kinds that a rider class and a wanted kind allow (R2); an absent code allows none. -/
def kindsAllowed : Option RiderClass → Option WantedKind → List BikeKind
  | some .standard, some .any => [.standard]
  | some .standard, some .standard => [.standard]
  | some .standard, some .electric => []
  | some _, some .any => [.standard, .electric]
  | some _, some .standard => [.standard]
  | some _, some .electric => [.electric]
  | _, _ => []

/-- A dock eligible for a rider class and the kinds allowed (R128). -/
def State.eligibleFor (s : State) (rider : Option RiderClass) (kinds : List BikeKind) (d : DockId) : Bool :=
  s.releaseReady d && match (s.dock d).bike with
    | some b => decide (b.kind ∈ kinds) && (decide (rider = some .staff) || s.aboveThreshold b)
    | none => false

/-- Selection (R129), for the kinds allowed, narrowed to one kind for an alternate (R128). -/
def State.select (s : State) (rider : Option RiderClass) (wanted : Option WantedKind) (narrow : Option BikeKind) :
    Option DockId :=
  let kinds := (kindsAllowed rider wanted).filter (fun k => decide (narrow = none ∨ narrow = some k))
  let ready := s.docksInUse.filter (s.eligibleFor rider kinds)
  if rider = some .staff ∧ wanted = some .any then firstBy s.standardBefore ready
  else
    match firstBy s.standardBefore (ready.filter (s.hasKind .standard)) with
    | some d => some d
    | none => firstBy s.electricBefore (ready.filter (s.hasKind .electric))

/-! ## Claim (8.2) -/

/-- The Dock Table takes a claim (R103): owner, last claim serial, attempts, stage deadline. -/
def State.takeClaim (s : State) (d : DockId) (o : Owner) (serial : Option Nat) : State :=
  s.setDock d { s.dock d with
    state := .claimed, owner := some o, lastSerial := serial, attempts := 0,
    deadline := some (s.afterMs (1000 * s.cfg.params.claimTimeout)) }

/-- A claim (R130): the Dock Table, the release state, the Charge Controller; then the head if it has changed (R131). -/
def State.claim (s : State) (d : DockId) (o : Owner) (serial : Option Nat) : State :=
  settle s (((s.takeClaim d o serial).setRel d (some .fresh)).chargeClaimed d)

/-- A dock leaves its release stages: it leaves the grant queue, a pulse in progress ends, its latch command is withdrawn
when it stood in UNLATCHING or RELOCK, and its release state is discarded (R130, R132). The dock's state is set after. -/
def State.leaveStages (s : State) (d : DockId) : State :=
  let s1 := (s.leaveGrantQueue d).endPulse d
  let s2 := if (s.dock d).state = .unlatching ∨ (s.dock d).state = .relock then s1.withdraw d .latch else s1
  s2.setRel d none

/-! ## Failed attempts (R136) -/

/-- Whether and which alternate dock is claimed (R136). -/
def State.alternate (s : State) (e : Entry) (kind : Option BikeKind) : Option DockId :=
  match kind with
  | none => none
  | some k => if e.alternateUsed || e.reserved then none else s.select e.summary.rider e.summary.wanted (some k)

/-- An attempt has failed (R136): the owner that the failed dock had, the reason, that dock and the kind of its bike. -/
def State.failAttempt (s : State) (o : Option Owner) (why : Reason) (d : DockId) (kind : Option BikeKind) : State :=
  match o with
  | none => s
  | some .service => s.releaseSlot
  | some (.tag t) =>
    let s1 := s.mapEntry t (fun e => { e with dock := none })
    match s1.entry t with
    | none => s1
    | some e =>
      match s1.alternate e kind with
      | some x =>
        (s1.claim x (.tag t) (some e.summary.serial)).mapEntry t (fun y => { y with dock := some x, alternateUsed := true })
      | none => (s1.rollback t).finishFailed t why (some d)

/-! ## Endings -/

/-- The RELEASE or SERVICE_RELEASE record of a completion (R138, R148, R172). -/
def State.releaseRecord (s : State) (d : DockId) (o : Owner) (late unobserved : Bool) : TripRecord :=
  match o with
  | .service => { s.tripRecord .serviceRelease d (s.heldNumber d) none with late := late, unobserved := unobserved }
  | .tag t =>
    { s.tripRecord .release d (s.heldNumber d) ((s.entry t).map (fun e => e.summary.serial)) with
      offline := ((s.entry t).map Entry.offline).getD false, late := late, unobserved := unobserved }

/-- The release completes (R138, R148): the record, the FINAL used-token entry, the dock EMPTY, the FINAL result. -/
def State.complete (s : State) (d : DockId) (late unobserved : Bool) : State :=
  match (s.dock d).owner with
  | none => s
  | some o =>
    let bike := s.heldNumber d
    let s1 := (s.leaveStages d).releaseSlot.writeRecord (s.releaseRecord d o late unobserved)
    match o with
    | .service => (s1.enterEmpty d).chargeLeft d
    | .tag t =>
      let s2 := match s1.entry t with
        | some e => (s1.mapEntry t (fun x => { x with slotReserved := false })).finalise t bike d e.offline e.creditCharged
        | none => s1
      ((s2.enterEmpty d).chargeLeft d).finish
        { plainResult t .final (some .taken) none (some d) bike with late := late, unobserved := unobserved }

/-- The end of a claim that took no bike: rollback and FINAL NOT_TAKEN, or the service undo (R140, R148). -/
def State.notTaken (s : State) (o : Owner) (d : DockId) (bike : Option Nat) : State :=
  match o with
  | .service => s.releaseSlot
  | .tag t => (s.rollback t).finish (plainResult t .final (some .notTaken) none (some d) bike)

/-- What a dock that has come back to DOCKED does with a noted fault (R141). -/
def State.actOnNoted (s : State) (d : DockId) (n : Option NotedFault) : State :=
  match n with
  | some f => s.faultBy d f.cause f.contents ((s.dock d).bike.bind Bike.soc)
  | none => s

/-- The fault noted on a dock in a release stage (R141). -/
def State.notedFault (s : State) (d : DockId) : Option NotedFault := (s.relState d).bind ReleaseState.noted

/-- A relock ends with the latch CLOSED and the bike in place (R140, R142): DOCKED, the presentation NOT_TAKEN, then the
noted fault. -/
def State.closeConfirmed (s : State) (d : DockId) : State :=
  let o := (s.dock d).owner
  let noted := s.notedFault d
  let bike := s.heldNumber d
  let s1 := s.leaveStages d
  let s2 := s1.setDock d { s1.dock d with state := .docked, owner := none, deadline := none }
  let s3 := match o with
    | some w => (s2.notTaken w d bike).chargeLeft d
    | none => s2
  (s3.enterDocked d).actOnNoted d noted

/-- A relock ends with the latch OPEN at its deadline (R140, R142): FAULT, JAM_OPEN. -/
def State.jamOpen (s : State) (d : DockId) : State :=
  let o := (s.dock d).owner
  let bike := s.heldNumber d
  let s1 := (s.leaveStages d).enterFault d .jamOpen
  match o with
  | some w => (s1.notTaken w d bike).chargeLeft d
  | none => s1

/-- The relock deadline: by the latch position that the record holds (R140, R142). -/
def State.relockEnds (s : State) (d : DockId) : State :=
  if (s.dock d).latch = some .opened then s.jamOpen d else s.closeConfirmed d

/-- A dock leaves CLAIMED or UNLATCHING for an end without a bike let go: the stage's end, with the dock's next state made
by `next`, then the failed attempt (R135, R137, R143). -/
def State.failStage (s : State) (d : DockId) (why : Reason) (next : State → State) : State :=
  let o := (s.dock d).owner
  let kind := (s.dock d).bike.map Bike.kind
  ((next (s.leaveStages d)).chargeLeft d).failAttempt o why d kind

/-! ## Dock notices (R104) -/

/-- LATCH_SEEN_OPEN (R134). -/
def State.latchSeenOpen (s : State) (d : DockId) : State :=
  let st := (s.dock d).state
  if st = .unlatching ∨ st = .claimed then
    let s1 := (s.leaveGrantQueue d).endPulse d
    let s2 := if st = .unlatching then s1.withdraw d .latch else s1
    let s3 := s2.setDock d { s2.dock d with
      state := .pickup, deadline := some (s2.afterMs (1000 * s2.cfg.params.pickupWindow)) }
    match (s.dock d).owner with
    | some (.tag t) => s3.produce (plainResult t .directed none none (some d) (s.heldNumber d))
    | _ => s3
  else s

/-- CONTACT_FAULT (R137, R141). -/
def State.contactFault (s : State) (d : DockId) (cause : FaultCause) (c : Contents) (soc : Option Nat) : State :=
  match (s.dock d).state with
  | .claimed | .unlatching => s.failStage d .jammed (fun x => x.faultBy d cause c soc)
  | .pickup | .relock =>
    match s.relState d with
    | some r => if r.noted.isNone then s.setRel d (some { r with noted := some ⟨cause, c⟩ }) else s
    | none => s
  | _ => s

/-- The flags of a removal: LATE and UNOBSERVED (R138, R140, R145). -/
def State.removalFlags (s : State) (d : DockId) : Bool × Bool :=
  match (s.relState d).bind ReleaseState.stale with
  | some x => (decide (x = .relock), true)
  | none => (decide ((s.dock d).state = .relock), false)

/-- REMOVAL_CONFIRMED (R137, R138, R140, R142). -/
def State.removalConfirmed (s : State) (d : DockId) : State :=
  match (s.dock d).state, (s.dock d).owner with
  | .claimed, _ => s.failStage d .jammed (fun x => (x.anomaly d (x.heldNumber d)).enterEmpty d)
  | .unlatching, _ => s.complete d false false
  | .pickup, some _ | .relock, some _ => s.complete d (s.removalFlags d).1 (s.removalFlags d).2
  | .relock, none => ((((s.leaveStages d).anomaly d (s.heldNumber d)).enterEmpty d).endContract d)
  | _, _ => s

/-- BIKE_CONFIRMED (R140, R142). -/
def State.bikeConfirmed (s : State) (d : DockId) (latch : LatchPosition) : State :=
  if (s.dock d).state = .relock ∧ latch = .closed then s.closeConfirmed d else s

/-- LINK_LOST (R142 to R145). -/
def State.linkLost (s : State) (d : DockId) : State :=
  match (s.dock d).state, (s.dock d).owner with
  | .claimed, _ =>
    s.failStage d .linkLost (fun x => x.setDock d { x.dock d with state := .docked, owner := none, deadline := none })
  | .unlatching, o =>
    let s1 := ((s.leaveStages d).unownedRelock d).chargeLeft d
    match o with
    | some (.tag t) => (s1.rollback t).finishFailed t .linkLost (some d)
    | some .service => s1.releaseSlot
    | none => s1
  | .pickup, some _ | .relock, some _ =>
    let stage := if (s.dock d).state = .pickup then StaleStage.pickup else StaleStage.relock
    let r := (s.relState d).getD .fresh
    (s.setRel d (some { r with stale := some (r.stale.getD stage), relinked := false })).setDock d { s.dock d with
      deadline := some (s.afterMs (1000 * s.cfg.params.staleLimit)) }
  | .relock, none => s.setDock d { s.dock d with deadline := none }
  | _, _ => s

/-- A stale wait runs (R145). -/
def State.staleRuns (s : State) (d : DockId) : Bool :=
  match s.relState d with
  | some r => r.stale.isSome && !r.relinked
  | none => false

/-- LINK_REGAINED for a claimed dock whose stale wait runs (R145). -/
def State.staleRegained (s : State) (d : DockId) : State :=
  match s.relState d with
  | some r => (s.setRel d (some { r with relinked := true })).startRelock d
  | none => s

/-! ## Rows of the Release Controller -/

/-- LATCH_GRANT: the head is granted when a slot is free and H is not below P_latch (R131, R132). -/
def latchGrant (s : State) : State :=
  match s.rel.grantQ with
  | [] => s
  | d :: rest =>
    if s.rel.pulses < s.cfg.params.lSlots then
      if s.headroom < s.cfg.params.pLatch then s.testHead
      else
        let r := (s.relState d).getD .fresh
        let s1 := s.setRel d (some { r with pulse := true })
        let s2 := settle s { s1 with rel := { s1.rel with grantQ := rest, pulses := s1.rel.pulses + 1 } }
        let s3 := s2.setDock d { s2.dock d with
          attempts := 1, state := .unlatching, deadline := some (s2.afterMs s2.cfg.params.latchConfirm) }
        s3.ask d .latchOpen
    else s

def execLatchGrant (s : State) : Host.Outcome State Fault Refusal := .next (latchGrant s)

/-- A stage deadline of a dock, when the dock stands in the stage and the deadline is reached. -/
def State.stageDeadline (s : State) (d : DockId) (stage : DockState) : Option State :=
  if (s.dock d).state = stage then (s.dock d).deadline.bind s.reached else none

/-- CLAIM_DEADLINE (R133). -/
def claimDeadline (d : DockId) (s : State) : State :=
  match s.stageDeadline d .claimed with
  | none => s
  | some s0 =>
    let o := (s0.dock d).owner
    let s1 := s0.leaveStages d
    let s2 := s1.setDock d { s1.dock d with state := .docked, owner := none, deadline := none }
    let s3 := (s2.chargeLeft d).offerIfDue d
    closeEvent s (match o with
      | some (.tag t) => (s3.rollback t).finishFailed t .claimTimeout (some d)
      | some .service => s3.releaseSlot
      | none => s3)

def execClaimDeadline (d : DockId) (s : State) : Host.Outcome State Fault Refusal := .next (claimDeadline d s)

/-- CONFIRM_DEADLINE (R135). -/
def confirmDeadline (d : DockId) (s : State) : State :=
  match s.stageDeadline d .unlatching with
  | none => s
  | some s0 =>
    if (s0.dock d).attempts ≤ s0.cfg.params.latchRetries then
      let s1 := s0.ask d .latchOpen
      s1.setDock d { s1.dock d with
        attempts := (s1.dock d).attempts + 1, deadline := some (s1.afterMs s1.cfg.params.latchConfirm) }
    else closeEvent s (s0.failStage d .jammed (fun x => x.enterFault d .jam))

def execConfirmDeadline (d : DockId) (s : State) : Host.Outcome State Fault Refusal := .next (confirmDeadline d s)

/-- PICKUP_DEADLINE (R139); in a stale wait the deadline of the stage is the stale deadline, which is not this row. -/
def pickupDeadline (d : DockId) (s : State) : State :=
  match s.stageDeadline d .pickup with
  | none => s
  | some s0 => if s0.staleRuns d then s else s0.startRelock d

def execPickupDeadline (d : DockId) (s : State) : Host.Outcome State Fault Refusal := .next (pickupDeadline d s)

/-- RELOCK_DEADLINE of a claimed dock (R140). -/
def relockDeadline (d : DockId) (s : State) : State :=
  match s.stageDeadline d .relock with
  | none => s
  | some s0 =>
    if (s0.dock d).owner.isNone || s0.staleRuns d then s else closeEvent s ((s0.relockEnds d).offerIfDue d)

def execRelockDeadline (d : DockId) (s : State) : Host.Outcome State Fault Refusal := .next (relockDeadline d s)

/-- UNOWNED_RELOCK_DEADLINE (R142). -/
def unownedRelockDeadline (d : DockId) (s : State) : State :=
  match s.stageDeadline d .relock with
  | none => s
  | some s0 => if (s0.dock d).owner.isNone then closeEvent s ((s0.relockEnds d).offerIfDue d) else s

def execUnownedRelockDeadline (d : DockId) (s : State) : Host.Outcome State Fault Refusal :=
  .next (unownedRelockDeadline d s)

/-- STALE_DEADLINE: the release is resolved as taken (R146). -/
def staleDeadline (d : DockId) (s : State) : State :=
  if s.staleRuns d then
    match (s.dock d).deadline.bind s.reached with
    | none => s
    | some s0 => closeEvent s (s0.complete d (s0.removalFlags d).1 true)
  else s

def execStaleDeadline (d : DockId) (s : State) : Host.Outcome State Fault Refusal := .next (staleDeadline d s)

/-- Service Release (R147). -/
def serviceRelease (payload : List Byte) (s : State) : Answer :=
  match s.dockInUse? (fieldVal payload 0 1) with
  | none => refuse s .outOfRange
  | some d =>
    if (s.dock d).state ≠ .docked ∨ s.linked d = false then refuse s .dockBusy
    else if s.slotTest = false then refuse s .recordsFull
    else
      answer (((s.reserveSlot).moveHold d).claim d .service none) .done (be8 (dockNumber d) ++ optBike (s.heldNumber d))

def execServiceRelease (p : PortId) (s : State) : Host.Outcome State Fault Refusal :=
  .next (serve p 0x55 .operator (lengthIs 1) serviceRelease s)

end Sys2Proof.Machine
end

