-- ==== Sys2Proof/Machine/Admission.lean ====
section
/-! DEFINITION. Admission (1.4, 1.5) and referrals (chapter 4). -/

namespace Sys2Proof.Machine

/-! ## Start (R7, R8) -/

/-- The inputs that an admission takes at its start and holds (R8). -/
def State.heldInputs (s : State) (tag : Byte) : Admission :=
  { tag := tag, time := s.clock.stationTime, grace := s.grace,
    synced := decide (s.clock.sync = .current) && !s.overAge, current := s.tokens.current, next := s.tokens.next }

/-- ADMISSION_START: admission of the oldest QUEUED entry starts and takes its held inputs (R7, R8). -/
def admissionStart (s : State) : State :=
  match s.pres.entries.find? (fun e => decide (e.stage = .queued)) with
  | none => s
  | some e =>
    if s.pres.admission = none ∧ s.tokens.changes = [] then
      let s1 := s.mapEntry e.tag (fun x => { x with stage := .checking })
      { s1 with pres := { s1.pres with admission := some (s.heldInputs e.tag) } }
    else s

def execAdmissionStart (s : State) : Host.Outcome State Fault Refusal := .next (admissionStart s)

/-! ## Steps 1 to 9 (R9 to R14) -/

/-- Steps 1 to 4: format, key, check word, revocation; the mark they leave (R9, R10). -/
def tokenSteps (a : Admission) (active : List SerialRange) (t : Token) : Except Reason (Option Reason) :=
  if t.malformed then .error .malformed
  else match slotKey a.current a.next t.generation with
    | none => if revoked active t.serial then .error .revoked else .ok (some .keyUnknown)
    | some key =>
      if checkWord key t ≠ t.check then .error .check
      else if revoked active t.serial then .error .revoked
      else .ok none

/-- Step 5: the used-token table, whose expired FINAL entry for the serial is removed (R10). -/
def State.usedStep (s : State) (serial : Nat) : Except Reason State :=
  match usedOf s.tokens.used serial with
  | none => .ok s
  | some e =>
    if e.isFinal = false then .error .inUse
    else if e.expired s.uptime then .ok (s.setUsed (s.tokens.used.filter (fun x => decide (x.serial ≠ serial))))
    else .error .alreadyUsed

/-- Step 6: time; the mark, and the time left for the offline expiry (R11, R34). -/
def timeStep (a : Admission) (t : Token) : Except Reason (Option Reason × Nat) :=
  if a.synced then
    match windowTest t.issueMinute t.validity a.time a.grace with
    | .notYet => .error .notYet
    | .expired => .error .expired
    | .passes n => .ok (none, n)
  else .ok (some .clockUnsynced, 60 * t.validity + 2 * a.grace)

/-- Step 7: the reservation code; the mark, and the held dock on the reserved path (R12). -/
def State.reservationStep (s : State) (x : Summary) : Except Reason (Option Reason × Option DockId) :=
  if x.reservation = 0 then .ok (none, none)
  else match heldEntry s.resv x.reservation with
    | none => .ok (some .reservationUnknown, none)
    | some r => if r.kind ∈ kindsAllowed x.rider x.wanted then .ok (none, some r.dock) else .error .reservationMismatch

/-- What steps 1 to 9 hand to the route step. -/
structure Verdict where
  mark : Option Reason
  timeLeft : Nat
  dock : DockId
  reserved : Bool
  deriving DecidableEq, Repr

/-- Steps 1 to 9 in order, with the state that the lookup and the purge leave (R8, R13, R14). -/
def State.admissionSteps (s : State) (a : Admission) (t : Token) : State × Except Reason Verdict :=
  match tokenSteps a s.tokens.active t with
  | .error r => (s, .error r)
  | .ok m1 =>
    match s.usedStep t.serial with
    | .error r => (s, .error r)
    | .ok s1 =>
      match timeStep a t with
      | .error r => (s1, .error r)
      | .ok (m2, left) =>
        match s1.reservationStep t.summary with
        | .error r => (s1, .error r)
        | .ok (m3, held) =>
          match (match held with | some d => some d | none => s1.select t.summary.rider t.summary.wanted none) with
          | none => (s1, .error .noBike)
          | some d =>
            let s2 := s1.purgeUsed
            if Config.maxUsed ≤ s2.tokens.used.length then (s2, .error .tableFull)
            else (s2, .ok ⟨(m1.or m2).or m3, left, d, held.isSome⟩)

/-! ## Step 10 and the routes (R16 to R18) -/

/-- The cost in sixteenths (R16). -/
def costOf (reserved : Bool) (rider : Option RiderClass) (kind : Option BikeKind) : Nat :=
  if reserved then 0
  else if rider = some .staff then 0
  else if kind = some .electric then 24 else 16

/-- The cost of a verdict (R16). -/
def State.verdictCost (s : State) (t : Token) (v : Verdict) : Nat :=
  costOf v.reserved t.summary.rider ((s.dock v.dock).bike.map Bike.kind)

/-- The offline route is taken (R16). -/
def State.goesOffline (s : State) (t : Token) (v : Verdict) : Bool :=
  v.reserved || (v.mark.isNone && t.offlineAllowed && decide (s.verdictCost t v ≤ s.clock.credit))

/-- The referral reason (R16). -/
def referralReason (t : Token) (v : Verdict) : Reason :=
  match v.mark with
  | some m => m
  | none => if t.offlineAllowed then .noCredit else .notOffline

/-- A charge (R37). -/
def State.charged (s : State) (n : Nat) : State :=
  { s with clock := { s.clock with credit := s.clock.credit - n } }

/-- The reservation of a claim on the reserved path ends USED (R82). -/
def State.useReservation (s : State) (reserved : Bool) (code : Nat) : State :=
  if reserved then s.endReservation code .used else s

/-- The offline route (R17). -/
def State.offlineRoute (s : State) (e : Entry) (t : Token) (v : Verdict) : State :=
  if s.slotTest then
    let cost := s.verdictCost t v
    let s1 := ((s.charged cost).insertTentative t.serial (s.afterSeconds v.timeLeft) e.tag cost).reserveSlot
    let s2 := (s1.claim v.dock (.tag e.tag) (some t.serial)).useReservation v.reserved t.reservation
    s2.mapEntry e.tag (fun x => { x with
      creditCharged := cost, slotReserved := true, dock := some v.dock, offline := true, reserved := v.reserved,
      stage := .releasing, token := none })
  else s.finishRefused e.tag .recordsFull

/-- The id of the next referral (R66). -/
def nextReferralId (open_ : List Referral) (last : Byte) : Byte :=
  (((List.range 9).map (fun k => last + 1 + BitVec.ofNat 8 k)).find?
    (fun i => open_.all (fun r => decide (r.id ≠ i)))).getD (last + 1)

/-- A referral is opened (R67). -/
def State.openReferral (s : State) (tag : Byte) (t : Token) (why : Reason) : State :=
  let id := nextReferralId s.refs.opened s.refs.lastIssued
  let r : Referral := { id := id, tag := tag, token := t, reason := why, fetched := false,
                        deadline := s.afterMs (1000 * s.cfg.params.referralTimeout) }
  (({ s with refs := { s.refs with opened := s.refs.opened ++ [r], lastIssued := id } }).raiseFor
    .operator .referralWaiting).mapEntry tag (fun x => { x with referral := some id })

/-- The refer route (R18). -/
def State.referRoute (s : State) (e : Entry) (t : Token) (v : Verdict) : State :=
  if s.refs.link = .down then s.finishRefused e.tag .offline
  else if Config.maxReferrals ≤ s.refs.opened.length then s.finishRefused e.tag .referralFull
  else
    let why := referralReason t v
    let s1 := s.insertTentative t.serial (s.afterSeconds (60 * t.validity)) e.tag 0
    ((s1.openReferral e.tag t why).produce (plainResult e.tag .referred none (some why) none none)).mapEntry e.tag
      (fun x => { x with stage := .referred, token := none })

/-- The admission of an entry ends (R8, R15, R16). -/
def State.endAdmission (s : State) (a : Admission) (e : Entry) (t : Token) : State :=
  match s.admissionSteps a t with
  | (s1, .error r) => s1.finishRefused e.tag r
  | (s1, .ok v) => if s1.goesOffline t v then s1.offlineRoute e t v else s1.referRoute e t v

/-- ADMISSION_COMPLETE (R8). -/
def admissionComplete (s : State) : State :=
  match s.pres.admission with
  | none => s
  | some a =>
    let s0 := { s with pres := { s.pres with admission := none } }
    match s0.entry a.tag with
    | none => s0
    | some e =>
      match e.token with
      | none => s0
      | some t => closeEvent s (s0.endAdmission a e t)

def execAdmissionComplete (s : State) : Host.Outcome State Fault Refusal := .next (admissionComplete s)

/-! ## Referral requests (chapter 4) -/

/-- The referral view (12.4): the token with its fields as they were presented. -/
def State.referralView (s : State) (r : Referral) : List Byte :=
  [r.id, r.tag] ++ r.token.bytes ++ [r.reason.code] ++ be32 (s.remaining r.deadline)

/-- The open entry of an id (R65). -/
def referralOf (open_ : List Referral) (id : Byte) : Option Referral := open_.find? (fun r => decide (r.id = id))

/-- The referrals that a view can show: an entry whose deadline is reached is ended, so that the time remaining of one that
is shown is above 0 (R68, R74). -/
def State.running (s : State) : List Referral := s.refs.opened.filter (fun r => !s.isReached r.deadline)

/-- Next Referral (R68). -/
def nextReferral (_ : List Byte) (s : State) : Answer :=
  match s.running.find? (fun r => !r.fetched) with
  | none => refuse s .empty
  | some r =>
    answer { s with refs := { s.refs with
        opened := s.refs.opened.map (fun x => if x.id = r.id then { x with fetched := true } else x) } } .done
      (s.referralView r)

def execNextReferral (p : PortId) (s : State) : Host.Outcome State Fault Refusal :=
  .next (serve p 0x30 .operator (lengthIs 0) nextReferral s)

/-- Read Referral (R69). -/
def readReferral (payload : List Byte) (s : State) : Answer :=
  match referralOf s.running (byteAt payload 0) with
  | none => refuse s .notFound
  | some r => answer s .done (s.referralView r ++ yesNo r.fetched)

def execReadReferral (p : PortId) (s : State) : Host.Outcome State Fault Refusal :=
  .next (serve p 0x31 .operator (lengthIs 1) readReferral s)

/-- The reserved dock of an approval (R72 step 2). -/
def State.approvedHold (s : State) (x : Summary) : Option DockId :=
  match s.reservationStep x with
  | .ok (_, held) => held
  | .error _ => none

/-- An APPROVE carried out (R72), with the fields of its response (log entry 6). -/
def State.approve (s : State) (r : Referral) (validity : Nat) : State × List Byte :=
  match s.entry r.tag with
  | none => (s, [3, Reason.noBike.code])
  | some e =>
    let s1 := s.replaceExpiry r.tag (s.afterSeconds validity)
    let held := s1.approvedHold e.summary
    match (match held with | some d => some d | none => s1.select e.summary.rider e.summary.wanted none) with
    | none => ((s1.rollback r.tag).finishFailed r.tag .noBike none, [3, Reason.noBike.code])
    | some d =>
      if s1.slotTest then
        let s2 := (s1.reserveSlot.claim d (.tag r.tag) (some e.summary.serial)).useReservation held.isSome e.summary.reservation
        let s3 := { s2 with refs := { s2.refs with opened := s2.refs.opened.filter (fun x => decide (x.id ≠ r.id)) } }
        (s3.mapEntry r.tag (fun x => { x with
          slotReserved := true, reserved := held.isSome, referral := none, dock := some d, stage := .releasing }),
         [1] ++ be8 (dockNumber d) ++ yesNo held.isSome)
      else ((s1.rollback r.tag).finishFailed r.tag .recordsFull none, [3, Reason.recordsFull.code])

/-- Answer Referral (R70 to R72). -/
def answerReferral (payload : List Byte) (s : State) : Answer :=
  let decision := byteAt payload 5
  let validity := fieldVal payload 6 2
  if decision ≠ 1 ∧ decision ≠ 2 then refuse s .outOfRange
  else if decision = 1 ∧ (validity < 60 ∨ 14400 < validity) then refuse s .outOfRange
  else match referralOf s.refs.opened (byteAt payload 0) with
    | none => refuse s .late
    | some r =>
      if r.token.serial ≠ fieldVal payload 1 4 then refuse s .late
      else if decision = 2 then answer ((s.rollback r.tag).finishRefused r.tag .denied) .done [2]
      else
        let out := s.approve r validity
        answer out.1 .done out.2

def execAnswerReferral (p : PortId) (s : State) : Host.Outcome State Fault Refusal :=
  .next (serve p 0x32 .operator (lengthIs 8) answerReferral s)

/-- REFERRAL_DEADLINE (R74). -/
def referralDeadline (id : Byte) (s : State) : State :=
  match referralOf s.refs.opened id with
  | none => s
  | some r =>
    match s.reached r.deadline with
    | none => s
    | some s0 => closeEvent s ((s0.rollback r.tag).finishRefused r.tag .timedOut)

def execReferralDeadline (id : Byte) (s : State) : Host.Outcome State Fault Refusal := .next (referralDeadline id s)

/-- The flush of every open referral, in opening order (R76). -/
def State.flushReferrals (s : State) : State :=
  s.refs.opened.foldl (fun x r => (x.rollback r.tag).finishRefused r.tag .offline) s

/-- Set Link State (R75, R76). -/
def setLinkState (payload : List Byte) (s : State) : Answer :=
  let v := byteAt payload 0
  if v = 1 then answer { s with refs := { s.refs with link := .up } } .done (be16 0)
  else if v = 2 then
    if s.refs.link = .up then
      let s1 := s.flushReferrals
      answer { s1 with refs := { s1.refs with link := .down } } .done (be16 s.refs.opened.length)
    else answer s .done (be16 0)
  else refuse s .outOfRange

def execSetLinkState (p : PortId) (s : State) : Host.Outcome State Fault Refusal :=
  .next (serve p 0x33 .operator (lengthIs 1) setLinkState s)

end Sys2Proof.Machine
end

