-- ==== Sys2Proof/Machine/Ports.lean ====
section
/-! DEFINITION. The Port Units: framing, port errors, the requests that a port answers of itself, events (11.1 to 11.5). -/

namespace Sys2Proof.Machine

/-! ## Framing (11.1, 11.2) -/

/-- A port error recorded (R182). -/
def Port.error (x : Port) (e : PortError) : Port := { x with errorCount := min (x.errorCount + 1) 255, lastError := some e }

/-- What a port shifts out at the first byte of a select period: the oldest complete response, which is then delivered, or a
PENDING marker (R179). -/
def Port.shiftOut (x : Port) : Port :=
  match x.outstanding with
  | ⟨_, .complete r⟩ :: rest => { x with outstanding := rest, dataOut := r.bytes }
  | os => { x with dataOut := pendingMarker os.length }

/-- PORT_TRANSACTION_START: the first byte of a select period is shifted (R179; log entry 16). -/
def portTransactionStart (p : PortId) (first : Option Byte) (s : State) : State :=
  match first, (s.port p).select with
  | none, _ => s
  | some _, .receiving _ => s
  | some b, _ => s.setPort p { (s.port p).shiftOut with select := if b = 0 then .emptyFrame else .receiving b }

def execPortTransactionStart (p : PortId) (first : Option Byte) (s : State) : Host.Outcome State Fault Refusal :=
  .next (portTransactionStart p first s)

/-- A request frame accepted, or discarded with PORT_FULL (R180, R182). -/
def Port.accept (x : Port) (r : Request) : Port :=
  if x.outstanding.length < Config.maxOutstanding then { x with outstanding := x.outstanding ++ [⟨r, .waiting⟩] }
  else x.error .portFull

/-- REQUEST_FRAME_END (R180). -/
def requestFrameEnd (p : PortId) (payload : List Byte) (s : State) : State :=
  match (s.port p).select with
  | .receiving code => s.setPort p { (s.port p).accept ⟨code, payload⟩ with select := .ended }
  | _ => s

def execRequestFrameEnd (p : PortId) (payload : List Byte) (s : State) : Host.Outcome State Fault Refusal :=
  .next (requestFrameEnd p payload s)

/-- FRAME_SHORT (R182). -/
def frameShort (p : PortId) (s : State) : State :=
  match (s.port p).select with
  | .receiving _ => s.setPort p { (s.port p).error .frameShort with select := .idle }
  | _ => s

def execFrameShort (p : PortId) (s : State) : Host.Outcome State Fault Refusal := .next (frameShort p s)

/-- BYTES_AFTER_STATED_LENGTH: FRAME_LONG, once in a select period (R182; log entry 17). -/
def bytesAfterStatedLength (p : PortId) (s : State) : State :=
  match (s.port p).select with
  | .ended => s.setPort p { (s.port p).error .frameLong with select := .overrun }
  | _ => s

def execBytesAfterStatedLength (p : PortId) (s : State) : Host.Outcome State Fault Refusal :=
  .next (bytesAfterStatedLength p s)

/-! ## Requests of the port itself (11.2, 11.3) -/

/-- UNKNOWN_REQUEST: the first test of R184. -/
def unknownRequest (p : PortId) (s : State) : State :=
  match (s.port p).next with
  | some r => if r.code ∈ requestCodes then s else s.respond p ⟨.unknownRequest, []⟩
  | none => s

def execUnknownRequest (p : PortId) (s : State) : Host.Outcome State Fault Refusal := .next (unknownRequest p s)

/-- No Operation (R183). -/
def noOperation (_ : List Byte) (s : State) : Answer := refuse s .done

def execNoOperation (p : PortId) (s : State) : Host.Outcome State Fault Refusal :=
  .next (serve p 0x01 .always (lengthIs 0) noOperation s)

/-- Read Port Status (R183; log entry 6). -/
def readPortStatus (p : PortId) (_ : List Byte) (s : State) : Answer :=
  let x := s.port p
  answer (s.setPort p { x with errorCount := 0, lastError := none }) .done
    (be16 x.errorCount ++ optCode PortError.code x.lastError ++ optCode Role.code x.role ++ yesNo s.cfg.ready)

def execReadPortStatus (p : PortId) (s : State) : Host.Outcome State Fault Refusal :=
  .next (serve p 0x02 .always (lengthIs 0) (readPortStatus p) s)

/-! ## Events (11.5) -/

/-- Flags set for the kinds of a list, clear for the others. -/
def EventFlags.ofKinds (ks : List EventKind) : EventFlags := ks.foldl (fun f k => f.put k true) EventFlags.none

/-- Flags with those of a list cleared. -/
def EventFlags.clear (f : EventFlags) (ks : List EventKind) : EventFlags := ks.foldl (fun g k => g.put k false) f

/-- Set Event Mask (R187). -/
def setEventMask (p : PortId) (payload : List Byte) (s : State) : Answer :=
  let x := s.port p
  let f := EventFlags.ofKinds (selectedKinds x.kinds (byteAt payload 0))
  answer (s.setPort p { x with enabled := f }) .done [f.bits x.kinds]

def execSetEventMask (p : PortId) (s : State) : Host.Outcome State Fault Refusal :=
  .next (serve p 0x04 .both (lengthIs 1) (setEventMask p) s)

/-- The highest-priority kind that is pending and enabled, with its priority number (R186, 12.3). -/
def Port.firstEvent (x : Port) : Option (EventKind × Nat) :=
  x.kinds.zipIdx.find? (fun k => x.pending.get k.1 && x.enabled.get k.1)

/-- Read Event (R186). -/
def readEvent (p : PortId) (_ : List Byte) (s : State) : Answer :=
  let x := s.port p
  match x.firstEvent with
  | none => answer s .none [x.pending.bits x.kinds]
  | some (k, n) =>
    let f := x.pending.put k false
    answer (s.setPort p { x with pending := f }) .done (be8 (n + 1) ++ [f.bits x.kinds])

def execReadEvent (p : PortId) (s : State) : Host.Outcome State Fault Refusal :=
  .next (serve p 0x05 .both (lengthIs 0) (readEvent p) s)

/-- Clear Events (R187). -/
def clearEvents (p : PortId) (payload : List Byte) (s : State) : Answer :=
  let x := s.port p
  let f := x.pending.clear (selectedKinds x.kinds (byteAt payload 0))
  answer (s.setPort p { x with pending := f }) .done [f.bits x.kinds]

def execClearEvents (p : PortId) (s : State) : Host.Outcome State Fault Refusal :=
  .next (serve p 0x06 .both (lengthIs 1) (clearEvents p) s)

end Sys2Proof.Machine
end

