-- ==== Sys2Proof/Machine/RecordRequests.lean ====
section
/-! DEFINITION. The requests that collect trip records (10.4). -/

namespace Sys2Proof.Machine

/-- Read Records (R175; log entry 6). -/
def readRecords (payload : List Byte) (s : State) : Answer :=
  match recordsFrom (fieldVal payload 0 2) s.recs.records with
  | [] => answer s .notFound (s.oldestSeq ++ be16 s.recs.records.length)
  | rs =>
    let out := rs.take 4
    answer s .done (be16 out.length ++ (out.map QueuedRecord.bytes).flatten
      ++ optSeq ((rs.drop 4).head?.map QueuedRecord.seq) ++ be16 s.recs.records.length)

def execReadRecords (p : PortId) (s : State) : Host.Outcome State Fault Refusal :=
  .next (serve p 0x60 .operator (lengthIs 2) readRecords s)

/-- The records after the one that carries a sequence. -/
def recordsAfter (seq : Nat) (rs : List QueuedRecord) : List QueuedRecord := (recordsFrom seq rs).drop 1

/-- Acknowledge Records (R176): the records through a sequence go, then the owed pass runs. -/
def acknowledgeRecords (payload : List Byte) (s : State) : Answer :=
  let seq := fieldVal payload 0 2
  match recordsFrom seq s.recs.records with
  | [] => answer s .notFound s.oldestSeq
  | _ =>
    let left := recordsAfter seq s.recs.records
    let s1 := ({ s with recs := { s.recs with records := left } }).owedPass
    answer s1 .done (be16 (s.recs.records.length - left.length) ++ be16 s1.recs.records.length)

def execAcknowledgeRecords (p : PortId) (s : State) : Host.Outcome State Fault Refusal :=
  .next (serve p 0x61 .operator (lengthIs 2) acknowledgeRecords s)

end Sys2Proof.Machine
end

