-- ==== Sys2Proof/Machine/Judgement.lean ====
section
/-! DEFINITION. The end of a transaction: its judgement (R116), the report in a good answer (R90, R91, R104), and the change
of link (R105), with the rows that end transactions. -/

namespace Sys2Proof.Machine

/-! ## A judged report (R90, R91) -/

/-- What a judged report replaces at once: latch position and, for an ELECTRIC bike, state of charge (R90). -/
def State.takeReport (s : State) (d : DockId) (r : Report) : State :=
  let k := s.dock d
  let bike := k.bike.map (fun b => if b.kind = .electric then { b with soc := r.soc } else b)
  s.setDock d { k with latch := some r.latch, bike := bike }

/-- The candidate and count cleared (R91, SHORT). -/
def State.clearCandidate (s : State) (d : DockId) : State :=
  s.setDock d { s.dock d with candidate := none, count := 0 }

/-- A report counted (R91), with the rule of the state for contents confirmed. -/
def State.countReport (s : State) (d : DockId) (c : Contents) (rule : Contents → State → State) : State :=
  let w := (s.dock d).weigh s.cfg.params c
  let s1 := s.setDock d w.1
  match w.2 with
  | some x => rule x s1
  | none => s1

/-- A report in FAULT or OUT_OF_SERVICE (R102). -/
def State.outOfUseReport (s : State) (d : DockId) (r : Report) : State :=
  if r.contents.code = .short then
    s.setDock d { s.dock d with picture := some r.contents, candidate := none, count := 0 }
  else s.countReport d r.contents (fun c x => x.outOfUseConfirm d c r.soc)

/-- A report in DOCKED (R96 to R100). A report that shows both the latch OPEN and SHORT is a forced latch first and then a
SHORT report in FAULT (DESIGN CHOICE, log entry 46). -/
def State.dockedReport (s : State) (d : DockId) (r : Report) : State :=
  if r.latch = .opened then (s.enterFault d .latchForced).outOfUseReport d r
  else if r.contents.code = .short then s.enterFault d .short
  else s.countReport d r.contents (fun c x => x.dockedConfirm d c r.soc)

/-- A report in EMPTY (R93). -/
def State.emptyReport (s : State) (d : DockId) (r : Report) : State :=
  if r.contents.code = .short then s.enterFault d .short
  else if r.contents.code = .noBike then s.clearCandidate d
  else
    (s.setDock d { s.dock d with state := .arriving, picture := none, candidate := none, count := 0 }).countReport d
      r.contents (fun c x => x.arrive d c r.latch r.soc)

/-- A confirmation in a release stage (R104): REMOVAL_CONFIRMED or CONTACT_FAULT; the bike part is not changed (log
entry 22). -/
def State.stageConfirm (s : State) (d : DockId) (c : Contents) (soc : Option Nat) : State :=
  if c.code = .noBike then s.removalConfirmed d
  else match (s.dock d).bike.bind (fun b => contactFault? b c) with
    | some cause => s.contactFault d cause c soc
    | none => s

/-- A report in a release stage hands its notices in order: the latch seen, the contents, then BIKE_CONFIRMED when the dock
stood in RELOCK as the report came (R104; log entry 20). -/
def State.stageReport (s : State) (d : DockId) (r : Report) (wasRelock : Bool) : State :=
  let s1 := if r.latch = .opened then s.latchSeenOpen d else s
  let s2 := if r.contents.code = .short then (s1.clearCandidate d).contactFault d .short r.contents r.soc
    else s1.countReport d r.contents (fun c x => x.stageConfirm d c r.soc)
  if wasRelock && r.contents.code.bikeKind.isSome && decide ((s2.dock d).picture.map Contents.code = some r.contents.code)
  then s2.bikeConfirmed d r.latch else s2

/-- A judged report acts by the dock's state (R91, 6.3). -/
def State.judgedReport (s : State) (d : DockId) (r : Report) (wasRelock : Bool) : State :=
  let s1 := (s.takeReport d r).fullEnds d
  match (s1.dock d).state with
  | .unknown =>
    if r.contents.code = .short then (s1.setDock d { s1.dock d with interrupted := false }).enterFault d .short
    else s1.countReport d r.contents (fun c x => x.learn d c r.latch r.soc)
  | .empty => s1.emptyReport d r
  | .arriving =>
    if r.contents.code = .short then s1.enterFault d .short
    else s1.countReport d r.contents (fun c x => x.arrive d c r.latch r.soc)
  | .docked => s1.dockedReport d r
  | .claimed | .unlatching | .pickup | .relock => s1.stageReport d r wasRelock
  | .fault | .outOfService => s1.outOfUseReport d r

/-! ## Change of link (R105, R124) -/

/-- The link has become LOST (R105, R151): the hold, the contract, the release stage. -/
def State.linkBecameLost (s : State) (d : DockId) : State :=
  let s1 := s.endContract d
  let s2 := if (s1.dock d).state = .docked then s1.moveHold d else s1
  s2.linkLost d

/-- The link has become LINKED, after the report has been judged (R124, R142, R151). -/
def State.linkBecameLinked (s : State) (d : DockId) : State :=
  match (s.dock d).state, (s.dock d).owner with
  | .relock, none => s.startRelock d
  | _, _ => s.openContract d

/-! ## Judgement (R116) -/

/-- Step 3 of R116: the report of a good answer, handed to the Dock Table and by it to the Charge Controller. For a claimed
dock whose stale wait runs, the regained link is acted on before the report's notices (R145). -/
def State.takeGoodReport (s : State) (t : Transaction) (r : Report) (regained : Bool) : State :=
  let d := t.dock
  let settled := decide (t.command.cls ≠ some .charge) && !s.chargeBusy d
  let s1 := s.setDock d { s.dock d with applied := r.applied }
  let s2 := (s1.chargeReport d r.applied settled).chargeMessage d r.message (decide (t.command = .caps))
  if s2.linked d then
    let wasRelock := decide ((s2.dock d).state = .relock)
    let s3 := if regained && s2.staleRuns d then s2.staleRegained d else s2
    s3.judgedReport d r wasRelock
  else s2

/-- R116: the transaction in progress is judged, good with its report or bad, the link change follows, and the arbiter makes
the next grant. -/
def judge (report : Option Report) (s : State) : State :=
  match s.line.txn with
  | none => s
  | some t =>
    let d := t.dock
    let good := report.isSome
    let old := (s.link d).state
    let l := (s.link d).count s.cfg.params good
    let s1 := ({ s with line := { s.line with txn := none } }).setLink d l
    let lost := decide (old ≠ .lost ∧ l.state = .lost)
    let regained := decide (old ≠ .linked ∧ l.state = .linked)
    let s2 := if lost then s1.dropCommands d else s1.settleCommand t good
    let s3 := match report with
      | some r => s2.takeGoodReport t r regained
      | none => s2
    let s4 := if lost then s3.linkBecameLost d else if regained then s3.linkBecameLinked d else s3
    closeEvent s ((s4.offerIfDue d).lineGrant)

/-- The transaction in progress, its phase changed. -/
def State.setPhase (s : State) (ph : LinePhase) : State :=
  { s with line := { s.line with txn := s.line.txn.map (fun t => { t with phase := ph }) } }

/-- Bytes of an answer that join those which have come: the 14th ends the transaction, which is judged, and any byte after it
is discarded (R113, R114). -/
def State.receive (s : State) (d : DockId) (come bytes : List Byte) : State :=
  let got := (come ++ bytes).take Config.reportLength
  if got.length = Config.reportLength then judge (goodAnswer? d got) s else s.setPhase (.answering got s.clock.ms)

/-- DOCK_REPORT_RECEIVED: bytes of an answer arrive (R113, R114; log entry 15). A first byte that comes after the window has
lasted W ms, and a further byte that comes more than W ms after the byte before it, find the transaction ended bad. -/
def dockReportReceived (bytes : List Byte) (s : State) : State :=
  if bytes = [] then s
  else match s.line.txn with
    | none => s
    | some t =>
      match t.phase with
      | .sending => s
      | .window o => if o + t.window < s.clock.ms then judge none s else s.receive t.dock [] bytes
      | .answering come l => if l + t.window < s.clock.ms then judge none s else s.receive t.dock come bytes

def execDockReportReceived (bytes : List Byte) (s : State) : Host.Outcome State Fault Refusal :=
  .next (dockReportReceived bytes s)

/-- The transaction judged bad at the close of its window or at a byte timeout, when that moment is reached. -/
def State.judgeAt (s : State) (moment : Nat) : State :=
  match s.reached moment with
  | some s0 => judge none s0
  | none => s

/-- ANSWER_WINDOW_CLOSE: the window closes with no answer begun (R113). -/
def answerWindowClose (s : State) : State :=
  match s.line.txn with
  | some t =>
    match t.phase with
    | .window o => s.judgeAt (o + t.window)
    | _ => s
  | none => s

def execAnswerWindowClose (s : State) : Host.Outcome State Fault Refusal := .next (answerWindowClose s)

/-- ANSWER_BYTE_TIMEOUT: W ms pass after a byte of the answer with no further byte (R113). -/
def answerByteTimeout (lastByte : Nat) (s : State) : State :=
  match s.line.txn with
  | some t =>
    match t.phase with
    | .answering _ l => if l = lastByte then s.judgeAt (l + t.window) else s
    | _ => s
  | none => s

def execAnswerByteTimeout (lastByte : Nat) (s : State) : Host.Outcome State Fault Refusal := .next (answerByteTimeout lastByte s)

end Sys2Proof.Machine
end

