-- ==== Sys2Proof/Machine/Station.lean ====
section
/-! DEFINITION. Station status, parameters, the stored configuration, the load and the two resets (11.6 to 11.9). -/

namespace Sys2Proof.Machine

/-! ## Station status (R195) -/

/-- Whether a slot is present and its generation (R41). -/
def KeySlot.view (k : KeySlot) : List Byte := yesNo k.present ++ [if k.present then k.generation else 0]

/-- The ranges in the loading list, 0 when there is none (R195). -/
def LoadState.count : LoadState → Nat
  | .none => 0
  | .opened l | .committing l => l.ranges.length

/-- Docks that hold an owed record (R178). -/
def State.owedDocks (s : State) : Nat := (allDocks.filter (fun d => (s.dock d).owed.isSome)).length

/-- The values of Read Station Status in the order of R195's table (R40; log entry 6). -/
def State.statusBytes (s : State) : List Byte :=
  yesNo s.cfg.ready ++ yesNo s.cfg.valid ++ be32 s.cfg.identity ++ optCode Role.code s.portA.role
    ++ optCode Role.code s.portB.role
    ++ be32 s.uptime ++ be32 s.clock.stationTime ++ yesNo s.clock.synced ++ [s.clock.sync.code] ++ be32 s.syncAge
    ++ be32 s.grace ++ be16 s.clock.credit
    ++ [s.refs.link.code]
    ++ s.tokens.current.view ++ s.tokens.next.view
    ++ [s.tokens.activeGen] ++ be16 s.tokens.active.length ++ [s.tokens.load.code] ++ be16 s.tokens.load.count
    ++ be16 (s.tokens.used.filter (fun e => !e.isFinal)).length ++ be16 (s.tokens.used.filter UsedEntry.isFinal).length
    ++ be16 s.pres.entries.length ++ be16 s.pres.results.length ++ be16 (owedTotal s.pres.entries)
    ++ yesNo s.pres.admission.isSome
    ++ be16 s.refs.opened.length
    ++ be16 (s.resv.filter Reservation.isHeld).length ++ be16 (s.resv.filter (fun r => !r.isHeld)).length
    ++ be16 s.rel.pulses ++ be16 s.rel.grantQ.length
    ++ be16 s.recs.records.length ++ be16 s.recs.reserved ++ be16 s.recs.nextSeq ++ be16 s.recs.lost ++ be16 s.owedDocks

/-- Read Station Status (R195). -/
def readStationStatus (_ : List Byte) (s : State) : Answer := answer s .done s.statusBytes

def execReadStationStatus (p : PortId) (s : State) : Host.Outcome State Fault Refusal :=
  .next (serve p 0x03 .always (lengthIs 0) readStationStatus s)

/-! ## Parameters (11.6) -/

def State.setParams (s : State) (x : Params) : State := { s with cfg := { s.cfg with params := x } }

/-- The credit lowered to the cap in force (R39). -/
def State.clampCredit (s : State) : State := { s with clock := { s.clock with credit := min s.clock.credit s.creditCap } }

/-- Some charger of docks 1..dock count, those that have a charge record (9.1), draws power or may draw it (R166). -/
def State.charging (s : State) : Bool :=
  s.docksInUse.any (fun d => decide (0 < (s.chg d).counted) || decide ((s.chg d).contract = some .active)
    || decide ((s.chg d).contract = some .trimmed) || decide ((s.chg d).contract = some .stopping))

/-- The test of the owning rule for a clamped value: true refuses it with STATE (R131, R166). -/
def State.paramRefused (s : State) (id v : Nat) : Bool :=
  match id with
  | 23 => decide (v < s.countedSum + s.cfg.params.pLatch * s.rel.pulses)
  | 24 => decide (s.cfg.params.bTotal < s.countedSum + v * s.rel.pulses)
  | 25 => decide (v < s.rel.pulses)
  | 26 | 27 | 28 | 29 => s.charging
  | _ => false

/-- A WAITING or TRIMMED contract that the new B_total and P_latch can never admit is rejected (R166). -/
def State.rejectIfNever (s : State) (d : DockId) : State :=
  match (s.chg d).requested with
  | some l =>
    if ((s.chg d).contract = some .waiting ∨ (s.chg d).contract = some .trimmed) ∧ s.neverFits l = true then
      s.rejectContract d
    else s
  | none => s

/-- An OFFERED or WAITING contract goes back to IDLE with offer time now (R166). -/
def State.reoffer (s : State) (d : DockId) : State :=
  if (s.chg d).contract = some .offered ∨ (s.chg d).contract = some .waiting then s.toIdle d (some s.clock.ms) else s

/-- The change of a parameter ends latch-held, raises B_total or lowers P_latch, so that a grant pass follows (R154, R155,
R166). A lowering of P_latch counts as a rise of H also while no pulse is in progress (DEDUCED from R166, log entry 48). -/
def raisesHeadroom (before after : State) : Bool :=
  (before.latchHeld && !after.latchHeld) || decide (before.cfg.params.bTotal < after.cfg.params.bTotal)
    || decide (after.cfg.params.pLatch < before.cfg.params.pLatch)

/-- What follows a change of B_total, P_latch or L_slots: the head of the latch grant queue is tested once (R131; after a
lowering of B_total too, DESIGN CHOICE, log entry 49), and then the grant pass is made where R154 calls for it. -/
def settleParam (before after : State) : State :=
  if raisesHeadroom before after then after.testHead.grantPass else after.testHead

/-- What the owning block does at once with a changed value (R190); `before` is the state before the request. A lapse that
the old lifetime had brought at the boundary before, and that SYNC_LAPSE has not taken yet, is made first (R29, R30). Contracts
are rejected or offered anew in ascending dock number, which gives their messages their places in the charge queue (R166 names
no order; DESIGN CHOICE, log entry 51). -/
def State.actOnParam (before s : State) (id : Nat) : State :=
  match id with
  | 20 => (if before.clock.sync = .current ∧ before.overAge = true then s.lapse else s).compareSync
  | 21 => s.clampCredit
  | 23 | 24 => settleParam before (s.docksInUse.foldl State.rejectIfNever s)
  | 25 => settleParam before s
  | 26 | 27 | 28 | 29 => s.docksInUse.foldl (fun x d => (x.reoffer d).offerIfDue d) s
  | _ => s

/-- Set Parameter (R190). -/
def setParameter (payload : List Byte) (s : State) : Answer :=
  let id := (byteAt payload 0).toNat
  if id = 1 ∨ id = 2 then refuse s .state
  else match paramRange id with
    | none => refuse s .outOfRange
    | some r =>
      let v := s.cfg.params.clampFor id (fieldVal payload 1 4) r
      if s.paramRefused id v then refuse s .state
      else answer (State.actOnParam s (s.setParams (s.cfg.params.set id v)) id) .done (be32 v)

def execSetParameter (p : PortId) (s : State) : Host.Outcome State Fault Refusal :=
  .next (serve p 0x70 .operator (lengthIs 5) setParameter s)

/-- The pending value of the port roles or the dock count, when it differs from the value in force (R191). -/
def State.pendingValue (s : State) (id : Nat) : Option Nat :=
  let stored := if id = 1 then s.cfg.storedRole.map roleValue else s.cfg.storedCount
  if stored = s.cfg.params.get id then none else stored

/-- Read Parameter (R191; log entry 6). -/
def readParameter (payload : List Byte) (s : State) : Answer :=
  let id := (byteAt payload 0).toNat
  match s.cfg.params.get id with
  | none => refuse s .outOfRange
  | some v =>
    answer s .done (be32 v ++ if id = 1 ∨ id = 2 then present be32 (be32 0) (s.pendingValue id) else [])

def execReadParameter (p : PortId) (s : State) : Host.Outcome State Fault Refusal :=
  .next (serve p 0x71 .operator (lengthIs 1) readParameter s)

/-! ## Storing the configuration (R192) -/

/-- Store Configuration (R192): the values are taken as they stand and the writing begins. -/
def storeConfiguration (p : PortId) (payload : List Byte) (s : State) : Answer :=
  let n := fieldVal payload 0 1
  let r := byteAt payload 1
  if 64 < n ∨ (r ≠ 0 ∧ (roleOf? r).isNone) then refuse s .outOfRange
  else
    let role := (roleOf? r).getD s.cfg.params.portARole
    let count := if n = 0 then s.cfg.params.dockCount else n
    let image := imageBytes { s.cfg.params with portARole := role, dockCount := count } s.cfg.identity
    ⟨{ s with cfg := { s.cfg with store := some { port := p, image := image, role := role, dockCount := count } } }, none⟩

def execStoreConfiguration (p : PortId) (s : State) : Host.Outcome State Fault Refusal :=
  .next (serve p 0x72 .operator (lengthIs 2) (storeConfiguration p) s)

/-- The check of a store passes (R192, R199). -/
def storePasses (image readBack : List Byte) : Bool := decide (readBack = image) && crc16Ok readBack

/-- STORE_CONFIGURATION_END (R192; log entry 10). -/
def storeConfigurationEnd (readBack : List Byte) (s : State) : State :=
  match s.cfg.store with
  | none => s
  | some j =>
    let mem := memWriteBytes s.cfg.serial 0 (readBack.take Config.imageLength)
    if storePasses j.image readBack then
      ({ s with cfg := { s.cfg with
          serial := mem, store := none, valid := true, storedRole := some j.role,
          storedCount := some j.dockCount } }).respond j.port ⟨.done, []⟩
    else
      (({ s with cfg := { s.cfg with
          serial := mem, store := none, valid := false, storedRole := none,
          storedCount := none } }).raiseBoth .configInvalid).respond j.port ⟨.verifyFailed, []⟩

def execStoreConfigurationEnd (readBack : List Byte) (s : State) : Host.Outcome State Fault Refusal :=
  .next (storeConfigurationEnd readBack s)

/-! ## Resets (R188, R196, R197) -/

/-- A select period in progress at a reset loses its request frame and shifts out filler (R197; log entry 37). -/
def SelectPhase.atReset : SelectPhase → SelectPhase
  | .idle => .idle
  | _ => .lost

/-- A port at a station restart, with the outstanding requests that stay (R196). -/
def Port.restarted (x : Port) (keep : List Outstanding) : Port :=
  { role := x.role, outstanding := keep, errorCount := 0, lastError := none, pending := .restarted,
    enabled := .restarted, select := x.select.atReset, dataOut := [] }

/-- A dock record at a station restart (R89). -/
def Dock.restarted (k : Dock) : Dock :=
  { Dock.reset with applied := k.applied, lastSerial := k.lastSerial, owed := k.owed, interrupted := k.state.inRelease }

/-- A charge record after a reset, with the allocation counted from an applied level (R167). -/
def Charge.counting (n : Nat) : Charge := { Charge.reset with counted := n }

/-- The refund of one TENTATIVE entry at a station restart (R63). -/
def State.refundEntry (s : State) (e : UsedEntry) : State :=
  match e.state with
  | .tentative _ credit => s.addCredit credit
  | .final .. => s

/-- A station restart: every block's restart rule (the table of R197), and the configuration load starts (R193). `keepA` and
`keepB` are the outstanding requests that the ports keep. -/
def State.restart (s : State) (keepA keepB : List Outstanding) : State :=
  let s1 := s.tokens.used.foldl State.refundEntry s
  let s2 := { s1 with
    cfg := { s1.cfg with ready := false, store := none }
    pres := { entries := [], results := [], admission := none }
    tokens := { s1.tokens with load := .none, changes := [], replacing := false,
                               used := s1.tokens.used.filter UsedEntry.isFinal }
    refs := { s1.refs with opened := [], link := .down }
    resv := []
    docks := s1.docks.map Dock.restarted
    line := Line.reset
    rel := Releases.reset
    charge := s1.docks.map (fun (k : Dock) => Charge.counting (s1.watts k.applied))
    recs := { s1.recs with reserved := 0 } }
  let s3 := s2.owedPass
  { s3 with portA := s3.portA.restarted keepA, portB := s3.portB.restarted keepB }

/-- Restart Station (R196): its response is made complete, then the restart is taken. -/
def restartStation (p : PortId) (s : State) : State :=
  match (s.port p).next with
  | none => s
  | some r =>
    if r.code = 0x73 then
      match requestTests .operator (lengthIs 0 r.payload) (s.port p).role s.cfg.ready with
      | some st => s.respond p ⟨st, []⟩
      | none =>
        let own : List Outstanding := [⟨r, .complete ⟨.done, []⟩⟩]
        match p with
        | .a => s.restart own []
        | .b => s.restart [] own
    else s

def execRestartStation (p : PortId) (s : State) : Host.Outcome State Fault Refusal := .next (restartStation p s)

/-- The memory at a cold reset: the first bytes of a store in progress have been written (R192; log entry 9). -/
def State.memoryAtReset (s : State) (written : Nat) : List Host.Cell :=
  match s.cfg.store with
  | some j => memWriteBytes s.cfg.serial 0 (j.image.take written)
  | none => s.cfg.serial

/-- COLD_RESET: every piece of state takes its cold-reset value, except the contents of the configuration memory and the
commands that wait (R197). -/
def coldReset (written : Nat) (s : State) : State :=
  { State.reset with
    cfg := { State.reset.cfg with serial := s.memoryAtReset written }
    portA := { Port.reset with select := s.portA.select.atReset }
    portB := { Port.reset with select := s.portB.select.atReset }
    pending := s.pending }

def execColdReset (written : Nat) (s : State) : Host.Outcome State Fault Refusal := .next (coldReset written s)

/-! ## Configuration load (R193, R194, R199) -/

/-- The 132 bytes that the load reads; a memory that does not answer reads as all ones (R193). -/
def State.loadImage (s : State) (answers : Bool) : List Byte :=
  if answers then memReadBytes s.cfg.serial 0 Config.imageLength else List.replicate Config.imageLength 0xFF

/-- A port takes a role, and its event set keeps the kinds of that role (R188, R194). -/
def Port.takeRole (x : Port) (r : Role) : Port :=
  { x with role := some r, pending := x.pending.keep r.kinds, enabled := x.enabled.keep r.kinds }

/-- The other role. -/
def Role.other : Role → Role
  | .rider => .operator
  | .operator => .rider

/-- Steps 1 and 2 of R194: the loaded values come into force, the ports take their roles, READY becomes high. -/
def State.takeImage (s : State) (image : List Byte) : State :=
  let ok := imageValid image
  let x := if ok then imageParams image else Params.default
  { s with
    cfg := { s.cfg with params := x, ready := true, valid := ok, identity := if ok then fieldVal image 2 4 else 0,
                        storedRole := none, storedCount := none }
    portA := s.portA.takeRole x.portARole
    portB := s.portB.takeRole x.portARole.other }

/-- The counted allocations at the levels in force (R167). -/
def State.recount (s : State) : State :=
  { s with charge := Vector.ofFn (fun d => { s.chg d with counted := s.watts (s.dock d).applied }) }

/-- The flags that the end of a load sets (R193, R194, R29, R178). -/
def State.loadFlags (s : State) : State :=
  let s1 := if s.cfg.valid then s else s.raiseBoth .configInvalid
  let s2 := if s1.clock.sync = .lapsed then s1.raiseFor .operator .clockUnsynced else s1
  let s3 := if s2.recs.records = [] then s2 else s2.raiseFor .operator .recordsWaiting
  if Config.nearFull ≤ s3.recs.records.length then s3.raiseFor .operator .recordsNearFull else s3

/-- The request that a port executes next, as it is answered while the load runs (R184, R194): the three requests that are
answered during the load in full, every other one by the first test that fails. -/
def State.answerEarly (s : State) (p : PortId) : State :=
  match (s.port p).next with
  | none => s
  | some r =>
    match requestAccess r.code with
    | none => s.respond p ⟨.unknownRequest, []⟩
    | some .always =>
      if r.code = 0x01 then serve p 0x01 .always (lengthIs 0) noOperation s
      else if r.code = 0x02 then serve p 0x02 .always (lengthIs 0) (readPortStatus p) s
      else serve p 0x03 .always (lengthIs 0) readStationStatus s
    | some a =>
      match requestTests a (payloadLengthOk r.code r.payload) (s.port p).role false with
      | some st => s.respond p ⟨st, []⟩
      | none => s

/-- The requests that were accepted before the load's end, two on each port at most (R180), are answered as during the load
and not repeated (R194; log entry 32). -/
def State.answerBeforeEnd (s : State) : State := [PortId.a, .a, .b, .b].foldl State.answerEarly s

/-- CONFIGURATION_LOAD_END (R194). The requests that were accepted before it are answered first, before a loaded value or a new
role is in force. -/
def configurationLoadEnd (answers : Bool) (s : State) : State :=
  if s.cfg.ready then s
  else
    let s1 := s.answerBeforeEnd.takeImage (s.loadImage answers)
    ((s1.clampCredit.compareSync.recount).loadFlags).lineGrant

def execConfigurationLoadEnd (answers : Bool) (s : State) : Host.Outcome State Fault Refusal :=
  .next (configurationLoadEnd answers s)

end Sys2Proof.Machine
end

