-- ==== Sys2Proof/Machine/Idle.lean ====
section
/-! DEFINITION. What the part does by itself when no command waits (log entry 2): its first event that is due, or a
millisecond that passes. Where the rules fix no order between two due events, the order of `due` is the model's. -/

namespace Sys2Proof.Machine

/-- The command that executes a request of a code (12.3). -/
def requestInstr (p : PortId) (code : Byte) : Instr :=
  if code = 0x01 then .noOperation p else if code = 0x02 then .readPortStatus p
  else if code = 0x03 then .readStationStatus p else if code = 0x04 then .setEventMask p
  else if code = 0x05 then .readEvent p else if code = 0x06 then .clearEvents p
  else if code = 0x10 then .presentToken p else if code = 0x11 then .readResult p
  else if code = 0x20 then .setTime p else if code = 0x21 then .loadKey p
  else if code = 0x22 then .promoteKey p else if code = 0x23 then .beginRevocationLoad p
  else if code = 0x24 then .addRevocationRanges p else if code = 0x25 then .commitRevocationLoad p
  else if code = 0x26 then .abandonRevocationLoad p else if code = 0x27 then .revokeSerial p
  else if code = 0x28 then .readUsedToken p else if code = 0x30 then .nextReferral p
  else if code = 0x31 then .readReferral p else if code = 0x32 then .answerReferral p
  else if code = 0x33 then .setLinkState p else if code = 0x40 then .placeReservation p
  else if code = 0x41 then .cancelReservation p else if code = 0x42 then .readReservations p
  else if code = 0x50 then .clearFault p else if code = 0x51 then .setDockService p
  else if code = 0x52 then .readDock p else if code = 0x53 then .readDockSummary p
  else if code = 0x54 then .readLineStatus p else if code = 0x55 then .serviceRelease p
  else if code = 0x56 then .readCharge p else if code = 0x60 then .readRecords p
  else if code = 0x61 then .acknowledgeRecords p else if code = 0x70 then .setParameter p
  else if code = 0x71 then .readParameter p else if code = 0x72 then .storeConfiguration p
  else if code = 0x73 then .restartStation p else .unknownRequest p

/-- The request that a port executes next. -/
def State.dueRequest (s : State) (p : PortId) : Option Instr := (s.port p).next.map (fun r => requestInstr p r.code)

/-- An admission, or the oldest list change, that may start (R7, R53). -/
def State.dueAdmission (s : State) : Option Instr :=
  if s.pres.admission.isSome then none
  else match s.tokens.changes with
    | [] => if s.pres.entries.any (fun e => decide (e.stage = .queued)) then some .admissionStart else none
    | .replacement _ :: _ => if s.tokens.replacing then none else some .revocationReplacementStart
    | .insertion _ _ :: _ => some .revokeSerialInsertion

/-- The head of the latch grant queue that can be granted (R131). -/
def State.dueGrant (s : State) : Option Instr :=
  if s.latchHeld && decide ((s.cfg.params.pLatch : Int) ≤ s.headroom) then some .latchGrant else none

/-- The work of a second or minute boundary that is left (R29, R36, R62, R84). -/
def State.dueSecond (s : State) : Option Instr :=
  if s.clock.sync = .current ∧ s.overAge = true then some .syncLapse
  else if s.clock.ms % 1000 = 0 ∧ s.tokens.used.any (UsedEntry.expired s.uptime) = true then some .usedTokenExpiry
  else if s.expiredHolds ≠ [] then some .reservationExpiry
  else if 0 < s.clock.refillsDue then some .creditRefill
  else none

/-- A referral whose deadline is reached (R74). -/
def State.dueReferral (s : State) : Option Instr :=
  (s.refs.opened.find? (fun r => s.isReached r.deadline)).map (fun r => .referralDeadline r.id)

/-- The stage deadline of a dock, when it is reached (chapter 8). -/
def State.dueStage (s : State) (d : DockId) : Option Instr :=
  if (s.dock d).deadline.any s.isReached then
    match (s.dock d).state with
    | .claimed => some (.claimDeadline d)
    | .unlatching => some (.confirmDeadline d)
    | .pickup => some (if s.staleRuns d then .staleDeadline d else .pickupDeadline d)
    | .relock =>
      some (if s.staleRuns d then .staleDeadline d
        else if (s.dock d).owner.isNone then .unownedRelockDeadline d else .relockDeadline d)
    | _ => none
  else none

/-- An offer time or an answer deadline of a dock, when it is reached (R156, R157). -/
def State.dueCharge (s : State) (d : DockId) : Option Instr :=
  match (s.chg d).contract with
  | some .idle =>
    if (s.chg d).offerTime.any s.isReached && !s.lowering d then some (.chargeOffer d) else none
  | some .offered => if (s.chg d).answerDeadline.any s.isReached then some (.chargeAnswerDeadline d) else none
  | _ => none

/-- The close of an answer window in which no answer has begun, or the timeout after the last byte of one that has (R113). -/
def State.dueWindow (s : State) : Option Instr :=
  match s.line.txn with
  | some t =>
    match t.phase with
    | .sending => none
    | .window o => if s.isReached (o + t.window) then some .answerWindowClose else none
    | .answering _ l => if s.isReached (l + t.window) then some (.answerByteTimeout l) else none
  | none => none

/-- The part's first due event (log entry 2): what starts at once when its conditions hold (R7, R53, R131), the work of a
boundary and the deadlines reached, and last the requests, so that none runs before a start or a deadline that came first. -/
def State.due (s : State) : Option Instr :=
  s.dueAdmission.or <| s.dueGrant.or <| s.dueSecond.or <| s.dueReferral.or <| (allDocks.findSome? s.dueStage).or <|
    (allDocks.findSome? s.dueCharge).or <| s.dueWindow.or <| (s.dueRequest .a).or (s.dueRequest .b)

/-- A millisecond passes; the last one of a second is SECOND_BOUNDARY (R25). -/
def State.tick (s : State) : State :=
  if s.clock.ms % 1000 = 999 then secondBoundary s
  else { s with clock := { s.clock with ms := min (s.clock.ms + 1) Config.maxMs } }

end Sys2Proof.Machine
end

