-- ==== Sys2Proof/Machine/Dispatch.lean ====
section
/-! DEFINITION. One arm per command: its meaning. -/

namespace Sys2Proof.Machine

def exec (i : Instr) (s : State) : Host.Outcome State Fault Refusal :=
  match i with
  | .portTransactionStart p first => Sys2Proof.Machine.execPortTransactionStart p first s
  | .requestFrameEnd p payload => Sys2Proof.Machine.execRequestFrameEnd p payload s
  | .frameShort p => Sys2Proof.Machine.execFrameShort p s
  | .unknownRequest p => Sys2Proof.Machine.execUnknownRequest p s
  | .noOperation p => Sys2Proof.Machine.execNoOperation p s
  | .readPortStatus p => Sys2Proof.Machine.execReadPortStatus p s
  | .readStationStatus p => Sys2Proof.Machine.execReadStationStatus p s
  | .setEventMask p => Sys2Proof.Machine.execSetEventMask p s
  | .readEvent p => Sys2Proof.Machine.execReadEvent p s
  | .clearEvents p => Sys2Proof.Machine.execClearEvents p s
  | .presentToken p => Sys2Proof.Machine.execPresentToken p s
  | .readResult p => Sys2Proof.Machine.execReadResult p s
  | .admissionStart => Sys2Proof.Machine.execAdmissionStart s
  | .admissionComplete => Sys2Proof.Machine.execAdmissionComplete s
  | .setTime p => Sys2Proof.Machine.execSetTime p s
  | .secondBoundary => Sys2Proof.Machine.execSecondBoundary s
  | .syncLapse => Sys2Proof.Machine.execSyncLapse s
  | .usedTokenExpiry => Sys2Proof.Machine.execUsedTokenExpiry s
  | .creditRefill => Sys2Proof.Machine.execCreditRefill s
  | .loadKey p => Sys2Proof.Machine.execLoadKey p s
  | .promoteKey p => Sys2Proof.Machine.execPromoteKey p s
  | .beginRevocationLoad p => Sys2Proof.Machine.execBeginRevocationLoad p s
  | .addRevocationRanges p => Sys2Proof.Machine.execAddRevocationRanges p s
  | .commitRevocationLoad p => Sys2Proof.Machine.execCommitRevocationLoad p s
  | .revocationReplacementStart => Sys2Proof.Machine.execRevocationReplacementStart s
  | .revocationReplacementEnd => Sys2Proof.Machine.execRevocationReplacementEnd s
  | .abandonRevocationLoad p => Sys2Proof.Machine.execAbandonRevocationLoad p s
  | .revokeSerial p => Sys2Proof.Machine.execRevokeSerial p s
  | .revokeSerialInsertion => Sys2Proof.Machine.execRevokeSerialInsertion s
  | .readUsedToken p => Sys2Proof.Machine.execReadUsedToken p s
  | .nextReferral p => Sys2Proof.Machine.execNextReferral p s
  | .readReferral p => Sys2Proof.Machine.execReadReferral p s
  | .answerReferral p => Sys2Proof.Machine.execAnswerReferral p s
  | .referralDeadline id => Sys2Proof.Machine.execReferralDeadline id s
  | .setLinkState p => Sys2Proof.Machine.execSetLinkState p s
  | .placeReservation p => Sys2Proof.Machine.execPlaceReservation p s
  | .cancelReservation p => Sys2Proof.Machine.execCancelReservation p s
  | .readReservations p => Sys2Proof.Machine.execReadReservations p s
  | .reservationExpiry => Sys2Proof.Machine.execReservationExpiry s
  | .clearFault p => Sys2Proof.Machine.execClearFault p s
  | .setDockService p => Sys2Proof.Machine.execSetDockService p s
  | .readDock p => Sys2Proof.Machine.execReadDock p s
  | .readDockSummary p => Sys2Proof.Machine.execReadDockSummary p s
  | .readLineStatus p => Sys2Proof.Machine.execReadLineStatus p s
  | .serviceRelease p => Sys2Proof.Machine.execServiceRelease p s
  | .readCharge p => Sys2Proof.Machine.execReadCharge p s
  | .readRecords p => Sys2Proof.Machine.execReadRecords p s
  | .acknowledgeRecords p => Sys2Proof.Machine.execAcknowledgeRecords p s
  | .setParameter p => Sys2Proof.Machine.execSetParameter p s
  | .readParameter p => Sys2Proof.Machine.execReadParameter p s
  | .storeConfiguration p => Sys2Proof.Machine.execStoreConfiguration p s
  | .storeConfigurationEnd readBack => Sys2Proof.Machine.execStoreConfigurationEnd readBack s
  | .restartStation p => Sys2Proof.Machine.execRestartStation p s
  | .coldReset written => Sys2Proof.Machine.execColdReset written s
  | .configurationLoadEnd answers => Sys2Proof.Machine.execConfigurationLoadEnd answers s
  | .commandFrameSent => Sys2Proof.Machine.execCommandFrameSent s
  | .dockReportReceived bytes => Sys2Proof.Machine.execDockReportReceived bytes s
  | .answerWindowClose => Sys2Proof.Machine.execAnswerWindowClose s
  | .answerByteTimeout lastByte => Sys2Proof.Machine.execAnswerByteTimeout lastByte s
  | .latchGrant => Sys2Proof.Machine.execLatchGrant s
  | .claimDeadline d => Sys2Proof.Machine.execClaimDeadline d s
  | .confirmDeadline d => Sys2Proof.Machine.execConfirmDeadline d s
  | .pickupDeadline d => Sys2Proof.Machine.execPickupDeadline d s
  | .relockDeadline d => Sys2Proof.Machine.execRelockDeadline d s
  | .unownedRelockDeadline d => Sys2Proof.Machine.execUnownedRelockDeadline d s
  | .staleDeadline d => Sys2Proof.Machine.execStaleDeadline d s
  | .chargeOffer d => Sys2Proof.Machine.execChargeOffer d s
  | .chargeAnswerDeadline d => Sys2Proof.Machine.execChargeAnswerDeadline d s
  | .bytesAfterStatedLength p => Sys2Proof.Machine.execBytesAfterStatedLength p s

end Sys2Proof.Machine
end

