-- ==== Sys2Proof/Safety.lean ====
section
/-! DEFINITION. What counts as a safe state: the bounds and forms that the rules give the part's collections, counters and
memory, in the terms that the statements use; and what it is for a port to execute a request. -/

namespace Sys2Proof.Machine

/-- Unread results plus owed results fit the result queue (R20). -/
def State.resultsBounded (s : State) : Prop := s.pres.results.length + owedTotal s.pres.entries ≤ Config.maxResults

/-- At most 16 live entries, no two with the same tag (R3). -/
def State.entriesDistinct (s : State) : Prop :=
  s.pres.entries.length ≤ Config.maxEntries ∧ (s.pres.entries.map Entry.tag).Nodup

/-- The offline credit lies between 0 and its cap (R35). -/
def State.creditBounded (s : State) : Prop := s.clock.credit ≤ s.creditCap

/-- A port's outstanding requests and error count are within their limits (R180, R182). -/
def Port.bounded (x : Port) : Prop := x.outstanding.length ≤ Config.maxOutstanding ∧ x.errorCount ≤ 255

def State.portsBounded (s : State) : Prop := s.portA.bounded ∧ s.portB.bounded

/-- The form of a list of ranges and its capacity (R46). -/
def rangesOrdered (rs : List SerialRange) : Prop := rangesFrom 0 rs = true ∧ rs.length ≤ Config.maxRanges

/-- The ranges of a loading list are as many as were announced at most, and no more were announced than the active list
holds (R48, R49). -/
def LoadState.ordered : LoadState → Prop
  | .none => True
  | .opened l | .committing l =>
    rangesFrom 0 l.ranges = true ∧ l.ranges.length ≤ l.announced ∧ l.announced ≤ Config.maxRanges

/-- The active list and the list being loaded are sorted, without overlap or touch, within their capacity (R46, R49). -/
def State.listsOrdered (s : State) : Prop := rangesOrdered s.tokens.active ∧ s.tokens.load.ordered

/-- At most 96 used-token entries, a serial in at most one of them (R55). -/
def State.usedDistinct (s : State) : Prop :=
  s.tokens.used.length ≤ Config.maxUsed ∧ (s.tokens.used.map UsedEntry.serial).Nodup

/-- At most 8 open referrals, no two with the same id (R65). -/
def State.referralsBounded (s : State) : Prop :=
  s.refs.opened.length ≤ Config.maxReferrals ∧ (s.refs.opened.map Referral.id).Nodup

/-- The codes of the HELD entries. -/
def heldCodes (rs : List Reservation) : List Nat := (rs.filter Reservation.isHeld).map Reservation.code

/-- At most 16 reservation entries, a code unique among the HELD ones (R78). -/
def State.reservationsDistinct (s : State) : Prop :=
  s.resv.length ≤ Config.maxReservations ∧ (heldCodes s.resv).Nodup

/-- Each command queue holds at most one entry for a dock (R117). -/
def Line.distinct (l : Line) : Prop :=
  (l.latchQ.map LineEntry.dock).Nodup ∧ (l.chargeQ.map LineEntry.dock).Nodup

def State.commandsDistinct (s : State) : Prop := s.line.distinct

/-- Uptime and station time are 32-bit quantities, and last-sync uptime does not exceed uptime (R25, R26, R27). -/
def State.timesBounded (s : State) : Prop :=
  s.clock.ms ≤ Config.maxMs ∧ s.clock.stationTime ≤ Config.max32 ∧ s.clock.lastSync ≤ s.uptime

/-- The serial memory is in canonical form (log entry 8). -/
def State.memoryCanonical (s : State) : Prop := Memory.wf s.cfg.serial = true

/-- A dock holds an owed record only while no slot is free (R173). -/
def State.owedOnlyWhenFull (s : State) : Prop := (∃ d, (s.dock d).owed.isSome = true) → s.freeSlots = 0

/-- A safe state: every bound and form above holds. -/
structure State.Safe (s : State) : Prop where
  results : s.resultsBounded
  entries : s.entriesDistinct
  credit : s.creditBounded
  ports : s.portsBounded
  lists : s.listsOrdered
  used : s.usedDistinct
  referrals : s.referralsBounded
  reservations : s.reservationsDistinct
  commands : s.commandsDistinct
  times : s.timesBounded
  memory : s.memoryCanonical
  owed : s.owedOnlyWhenFull

/-- Port `p` executes a request of code `code` next, with payload `payload`, and the tests of R184 let it through: its role
may make the request, and the load has ended or the request is answered without it. -/
def Executes (s : State) (p : PortId) (code : Byte) (a : Access) (payload : List Byte) : Prop :=
  (s.port p).next = some ⟨code, payload⟩ ∧ a.allows (s.port p).role = true ∧ (s.cfg.ready = true ∨ a = .always)

/-- The request that port `p` executes is answered with the response `r`: its place among the outstanding requests stays. -/
def Answered (s t : State) (p : PortId) (r : Response) : Prop :=
  (t.port p).outstanding = putProgress (.complete r) (s.port p).outstanding

/-- The answer that a request which waits at the end of a load takes in its event, before a loaded value is in force (R184, R194):
by the first test of R184 that fails, or, of the three requests that are answered during the load, in full. `oldest` says that
every request before it on the port was complete, so that no other answer comes before its own. -/
def AnsweredEarly (s : State) (p : PortId) (r : Request) (oldest : Prop) (a : Response) : Prop :=
  (r.code ∉ requestCodes → a = ⟨.unknownRequest, []⟩)
  ∧ ∀ x, requestAccess r.code = some x →
    (payloadLengthOk r.code r.payload = false → a = ⟨.badLength, []⟩)
    ∧ (payloadLengthOk r.code r.payload = true →
      (x.allows (s.port p).role = false → a = ⟨.role, []⟩)
      ∧ (x.allows (s.port p).role = true → x ≠ .always → a = ⟨.notReady, []⟩)
      ∧ (r.code = 0x01 → a = ⟨.done, []⟩)
      ∧ (r.code = 0x02 → a.status = .done ∧ (oldest → a = ⟨.done, be16 (s.port p).errorCount
          ++ optCode PortError.code (s.port p).lastError ++ optCode Role.code (s.port p).role ++ yesNo false⟩))
      ∧ (r.code = 0x03 → a = ⟨.done, s.statusBytes⟩))

/-- The credit charged that a TENTATIVE used-token entry holds (R63). -/
def UsedEntry.creditHeld (u : UsedEntry) : Nat :=
  match u.state with
  | .tentative _ credit => credit
  | .final .. => 0

/-- A row `c` that executes the request of code `code`, whose payload has `len` bytes, belongs to the OPERATOR role and is not
answered before the load has ended (R184): on a RIDER port it answers ROLE, and before READY, NOT_READY. -/
def OperatorOnly (c : PortId → Instr) (code : Byte) (len : Nat) : Prop :=
  ∀ (s : State) (p : PortId) (payload : List Byte), (s.port p).next = some ⟨code, payload⟩ → payload.length = len →
    ((s.port p).role = some .rider → exec (c p) s = .next (s.respond p ⟨.role, []⟩))
      ∧ ((s.port p).role ≠ some .rider → s.cfg.ready = false → exec (c p) s = .next (s.respond p ⟨.notReady, []⟩))

/-- An event kind is pending in every port of a role. -/
def State.pendingFor (t : State) (r : Role) (k : EventKind) : Prop :=
  ∀ p, (t.port p).role = some r → (t.port p).pending.get k = true

/-! ## What a report meets -/

/-- An answer of 14 bytes comes while the answer window of the transaction `x` is open and no byte of it has come before, and it
is good with the report `r` (R113, R114). -/
def AnswerArrives (s : State) (x : Transaction) (bytes : List Byte) (r : Report) : Prop :=
  s.line.txn = some x ∧ (∃ o, x.phase = .window o ∧ s.clock.ms ≤ o + x.window) ∧ bytes.length = 14
    ∧ goodAnswer? x.dock bytes = some r

/-- Such an answer comes from a dock whose link is LINKED, so that its report is judged (R90). -/
def ReportArrives (s : State) (x : Transaction) (bytes : List Byte) (r : Report) : Prop :=
  AnswerArrives s x bytes r ∧ s.linked x.dock = true

/-- The transaction `x` is in its answer window, which has lasted W ms with no byte of an answer (R113). -/
def WindowEnds (s : State) (x : Transaction) : Prop :=
  s.line.txn = some x ∧ ∃ o, x.phase = .window o ∧ o + x.window ≤ s.clock.ms

/-- Contents match the picture (R91). -/
def Dock.steady (k : Dock) (c : Contents) : Prop := k.picture.any (fun x => x.same c) = true

/-- The count that contents reach when they do not match the picture (R91). -/
def Dock.countWith (k : Dock) (c : Contents) : Nat := if k.candidate.any (fun x => x.same c) then k.count + 1 else 1

/-- Contents are confirmed by this report: they do not match the picture, and their count reaches its threshold (R91). -/
def Dock.confirms (k : Dock) (p : Params) (c : Contents) : Prop :=
  c.code ≠ .short ∧ ¬ k.steady c ∧ p.confirmAt c ≤ k.countWith c

/-- A bike part after a judged report: the state of charge of an ELECTRIC bike is the report's (R90). -/
def Report.refresh (r : Report) (b : Bike) : Bike := if b.kind = .electric then { b with soc := r.soc } else b

/-- The bike part of a bike confirmed by a report (R94). -/
def State.bikeOf (s : State) (r : Report) (k : BikeKind) : Bike :=
  { kind := k, number := r.contents.tag.number, since := s.uptime, sinceStation := s.recordable,
    soc := if k = .electric then r.soc else none }

/-- The Record Queue with one more record, which takes the next sequence (R170). -/
def Records.joined (q : Records) (r : TripRecord) : Records :=
  { q with records := q.records ++ [⟨q.nextSeq, r⟩], nextSeq := (q.nextSeq + 1) % 65536 }

/-- A RETURN or ANOMALY of a dock is handed over (R173): written while a slot is free; else held as the dock's owed record,
where it holds none; else dropped and counted lost. -/
def HandedOver (s t : State) (r : TripRecord) : Prop :=
  (0 < s.freeSlots → t.recs = s.recs.joined r)
    ∧ (s.freeSlots = 0 → (s.dock r.dock).owed = none → t.recs = s.recs ∧ (t.dock r.dock).owed = some r)
    ∧ (s.freeSlots = 0 → (s.dock r.dock).owed.isSome = true → t.recs = { s.recs with lost := min (s.recs.lost + 1) 65535 })

/-- The bike `n` comes back within no bounce window (R149): the window is 0, the bike has no number, or each FINAL entry that
names it is older than the window. -/
def State.noBounce (s : State) (n : Option Nat) : Prop :=
  s.cfg.params.bounceWindow = 0 ∨ n = none ∨ ∀ u ∈ s.tokens.used, ∀ y rem off cost, u.state = .final n y rem off cost →
    s.cfg.params.bounceWindow < s.uptime - rem

/-- The bike `n` comes back within the bounce window of the latest FINAL entry that names it, `u`, whose removal is at `rem`,
with its offline flag and cost (R61, R149). -/
def State.bouncesOn (s : State) (n : Nat) (u : UsedEntry) (rem : Nat) (off : Bool) (cost : Nat) : Prop :=
  0 < s.cfg.params.bounceWindow ∧ u ∈ s.tokens.used ∧ (∃ y, u.state = .final (some n) y rem off cost)
    ∧ s.uptime - rem ≤ s.cfg.params.bounceWindow
    ∧ ∀ v ∈ s.tokens.used, v ≠ u → ∀ y r o c, v.state = .final (some n) y r o c → r < rem

/-- A bike has come back to a dock, which writes a RETURN record (R94, R95, R102, R149): with no bounce nothing else follows;
on a bounce the entry is removed and its cost refunded where it went offline. -/
def Returned (s t : State) (d : DockId) (n : Option Nat) (found : Bool) : Prop :=
  (s.noBounce n → HandedOver s t { s.tripRecord .bikeReturn d n none with found := found }
      ∧ t.tokens = s.tokens ∧ t.clock = s.clock)
    ∧ ∀ k u rem off cost, n = some k → s.bouncesOn k u rem off cost →
      HandedOver s t { s.tripRecord .bikeReturn d n none with bounce := true, found := found }
        ∧ t.tokens = { s.tokens with used := s.tokens.used.filter (fun x => decide (x ≠ u)) }
        ∧ t.clock = { s.clock with credit := if off then min (s.clock.credit + cost) (16 * s.cfg.params.cCap) else s.clock.credit }

/-! ## How a claim ends -/

/-- A dock has a claim owner or none; a presentation that owns it is live and owed a result. -/
def OwnedBy (s : State) (d : DockId) (o : Option Owner) : Prop :=
  (s.dock d).owner = o ∧ ∀ g, o = some (.tag g) → ∃ e, s.entry g = some e ∧ e.owed ≠ 0

/-- The presentation of tag `g` has ended in `t` with one FINAL result more than in `s` (R21). -/
def EndsWith (s t : State) (g : Byte) (r : Result) : Prop := t.entry g = none ∧ t.pres.results = s.pres.results ++ [r]

/-- What an event writes into the Record Queue and the used-token table besides undoing a claim: what it writes before it, and
what it writes after it. -/
structure Writes where
  before : State → State
  after : State → State

/-- An event that writes nothing else. -/
def Writes.nothing : Writes := ⟨id, id⟩

/-- The records and the owed records of an event that releases the record slot of a claim, when it `frees` one, and writes `w`
(R171): reserved falls by 1, and the owed pass follows at the end of the event (R174). -/
def RecordsAfter (s t : State) (w : Writes) (frees : Bool) : Prop :=
  ∃ u, u = (if frees then
      (w.after (let b := w.before s; { b with recs := { b.recs with reserved := b.recs.reserved - 1 } })).owedPass
    else w.after (w.before s))
    ∧ t.recs = u.recs ∧ ∀ y, (t.dock y).owed = (u.dock y).owed

/-- The presentation `e` has been rolled back in an event that writes `w` besides (R23): the credit charged is added back and
clamped (R38), the TENTATIVE entry of its serial and tag is removed and no other (R60), the record slot is released (R171) and
its referral is gone. -/
def RolledBack (s t : State) (w : Writes) (e : Entry) : Prop :=
  t.clock = { s.clock with credit := min ((w.after (w.before s)).clock.credit + e.creditCharged) (16 * s.cfg.params.cCap) }
    ∧ t.tokens = { s.tokens with used := t.tokens.used }
    ∧ t.tokens.used = (w.after (w.before s)).tokens.used.filter
        (fun u => decide (¬ (u.serial = e.summary.serial ∧ u.ownedBy e.tag = true)))
    ∧ t.refs = { s.refs with opened := s.refs.opened.filter (fun r => decide (some r.id ≠ e.referral)) }
    ∧ RecordsAfter s t w e.slotReserved

/-- Nothing of a presentation changes in an event that writes `w`; the record slot of a SERVICE claim is released, when it
`frees` one (R148). -/
def NoPresentation (s t : State) (w : Writes) (frees : Bool) : Prop :=
  t.pres = s.pres ∧ t.refs = s.refs ∧ t.clock = (w.after (w.before s)).clock ∧ t.tokens = (w.after (w.before s)).tokens
    ∧ RecordsAfter s t w frees

/-- A claim of owner `o`, or a stage without an owner, has ended with no bike let go: a presentation is rolled back and ends with
the FINAL result `r` of its tag; a SERVICE claim has the service undo and no result (R148); without an owner there is neither
(R142). -/
def ClaimUndone (s t : State) (w : Writes) (o : Option Owner) (r : Byte → Result) : Prop :=
  (∀ g e, o = some (.tag g) → s.entry g = some e → EndsWith s t g (r g) ∧ RolledBack s t w e)
    ∧ (o = some .service → NoPresentation s t w true)
    ∧ (o = none → NoPresentation s t w false)

/-- An attempt of tag `g` at dock `d` has failed with a reason (R136). Where alternate-used and reserved are no and selection,
narrowed to the kind of the bike at `d`, names a dock, that dock is claimed instead, no result is produced, and credit, record
slot and TENTATIVE entry stay; else the presentation is rolled back and ends FAILED. -/
def AttemptFailed (s t : State) (w : Writes) (d : DockId) (g : Byte) (e : Entry) (why : Reason) : Prop :=
  ((e.alternateUsed = true ∨ e.reserved = true ∨ (s.dock d).bike = none
      ∨ ∃ b, (s.dock d).bike = some b ∧ s.select e.summary.rider e.summary.wanted (some b.kind) = none) →
    EndsWith s t g (plainResult g .final (some .failed) (some why) (some d) none) ∧ RolledBack s t w e)
  ∧ ∀ b y, e.alternateUsed = false → e.reserved = false → (s.dock d).bike = some b →
    s.select e.summary.rider e.summary.wanted (some b.kind) = some y →
      t.entry g = some { e with dock := some y, alternateUsed := true } ∧ t.pres.results = s.pres.results
        ∧ t.clock = (w.after (w.before s)).clock ∧ t.tokens = (w.after (w.before s)).tokens ∧ RecordsAfter s t w false
        ∧ (t.dock y).state = .claimed ∧ (t.dock y).owner = some (.tag g)
        ∧ (t.dock y).lastSerial = some e.summary.serial
        ∧ (t.dock y).deadline = some (s.afterMs (1000 * s.cfg.params.claimTimeout)) ∧ (t.chg y).held = true

/-- The attempt of owner `o` at dock `d` has failed: a SERVICE claim has the service undo, and no alternate is tried (R136). -/
def ClaimFailed (s t : State) (w : Writes) (d : DockId) (o : Option Owner) (why : Reason) : Prop :=
  (∀ g e, o = some (.tag g) → s.entry g = some e → AttemptFailed s t w d g e why)
    ∧ (o = some .service → NoPresentation s t w true)
    ∧ (o = none → NoPresentation s t w false)

/-- The release of owner `o` from dock `d` is complete (R138): the record goes into the reserved slot and the dock is EMPTY. Of a
presentation the used-token entry is FINAL (R58) and the result is TAKEN; of a SERVICE claim the record is a SERVICE_RELEASE and
there is no result (R148). -/
def ReleaseCompleted (s t : State) (d : DockId) (o : Option Owner) (late unobserved : Bool) : Prop :=
  let bike := (s.dock d).bike.bind Bike.number
  (t.dock d).state = .empty ∧ (t.dock d).bike = none ∧ (t.dock d).owner = none ∧ t.relState d = none
    ∧ (t.dock d).picture = some ⟨.noBike, .none⟩ ∧ (t.chg d).held = false ∧ (t.chg d).contract = none
    ∧ t.clock = s.clock ∧ t.resv = s.resv ∧ t.refs = s.refs
    ∧ (∀ g e, o = some (.tag g) → s.entry g = some e →
      t.recs = { s.recs.joined { s.tripRecord .release d bike (some e.summary.serial) with
          offline := e.offline, late := late, unobserved := unobserved } with reserved := s.recs.reserved - 1 }
      ∧ t.tokens = { s.tokens with used := t.tokens.used }
      ∧ t.tokens.used = s.tokens.used.map (fun u => if u.ownedBy g then
          { u with expiry := max u.expiry (s.afterSeconds s.cfg.params.bounceWindow),
                   state := .final bike d s.uptime e.offline e.creditCharged } else u)
      ∧ EndsWith s t g { plainResult g .final (some .taken) none (some d) bike with late := late, unobserved := unobserved })
    ∧ (o = some .service →
      t.recs = { s.recs.joined { s.tripRecord .serviceRelease d bike none with late := late, unobserved := unobserved } with
          reserved := s.recs.reserved - 1 }
      ∧ t.tokens = s.tokens ∧ t.pres = s.pres)

/-! ## Contact faults -/

/-- Contents that show a bike part a contact fault, with its cause (R97, R99, R100). -/
def ContactFault (bike : Option Bike) (c : Contents) (cause : FaultCause) : Prop :=
  (c.code = .short ∧ cause = .short)
  ∨ ∃ b, bike = some b ∧
    ((c.code ≠ .short ∧ c.code ≠ .noBike ∧ c.code.bikeKind ≠ some b.kind ∧ cause = .misseated)
    ∨ (c.code.bikeKind = some b.kind ∧ c.tag = .conflict ∧ cause = .tagConflict)
    ∨ ∃ m n, c.code.bikeKind = some b.kind ∧ c.tag = .ok n ∧ b.number = some m ∧ n ≠ m ∧ cause = .tagMismatch)

/-- The report raises a CONTACT_FAULT notice with a cause: SHORT at once, any other when its contents are confirmed (R104). -/
def Dock.faultShown (k : Dock) (p : Params) (c : Contents) (cause : FaultCause) : Prop :=
  ContactFault k.bike c cause ∧ (cause = .short ∨ k.confirms p c)

/-- The records that the DOCKED rule for a cause writes: for TAG_MISMATCH an ANOMALY for the old bike and a RETURN for the new one
with its bounce (R100), else none. -/
def State.faultRecords (s : State) (d : DockId) (cause : FaultCause) (c : Contents) : State → State :=
  if cause = .tagMismatch then fun x =>
    (x.handOver (s.tripRecord .anomaly d ((s.dock d).bike.bind Bike.number) (s.dock d).lastSerial)).recordReturn d c.tag.number true
  else id

/-- A dock has entered FAULT with a cause (R101): no claim, no hold, no contract, and DOCK_FAULT on each OPERATOR port. -/
def FaultEntered (t : State) (d : DockId) (cause : FaultCause) : Prop :=
  (t.dock d).state = .fault ∧ (t.dock d).faultCause = some cause ∧ (t.dock d).owner = none ∧ (t.dock d).heldBy = none
    ∧ (t.chg d).contract = none ∧ t.pendingFor .operator .dockFault

/-- A transaction of dock `d` has been judged (R116, R122): the answer counts toward the link of `d` and no other link, and
time, parameters, keys, lists, the admission in progress and the outstanding requests stay. -/
def Judged (s t : State) (d : DockId) (good : Bool) : Prop :=
  t.link d = (s.link d).count s.cfg.params good ∧ (∀ y, y ≠ d → t.link y = s.link y)
    ∧ t.cfg = s.cfg ∧ t.clock = { s.clock with credit := t.clock.credit }
    ∧ t.tokens = { s.tokens with used := t.tokens.used } ∧ t.pres.admission = s.pres.admission
    ∧ t.portA = { s.portA with pending := t.portA.pending } ∧ t.portB = { s.portB with pending := t.portB.pending }

/-! ## Selection (R2, R128, R129) -/

/-- A dock of 1..dock count can give up the bike `b`: it is DOCKED and LINKED with `b` identified, and no reservation holds it
(R108). -/
def State.offers (s : State) (d : DockId) (b : Bike) : Prop :=
  d.val < s.cfg.params.dockCount ∧ (s.dock d).state = .docked ∧ (s.link d).state = .linked ∧ (s.dock d).bike = some b
    ∧ b.number.isSome = true ∧ (s.dock d).heldBy = none

/-- Selection for a rider class and a wanted kind, narrowed to one kind for an alternate, may name dock `d` with the bike `b`
(R2, R128). -/
def State.maySelect (s : State) (rider : RiderClass) (wanted : WantedKind) (narrow : Option BikeKind) (d : DockId) (b : Bike) :
    Prop :=
  s.offers d b
    ∧ ((b.kind = .standard ∧ wanted ≠ .electric) ∨ (b.kind = .electric ∧ wanted ≠ .standard ∧ rider ≠ .standard))
    ∧ (narrow = none ∨ narrow = some b.kind)
    ∧ (b.kind = .electric → rider ≠ .staff → s.cfg.params.releaseThreshold ≤ b.soc.getD 0)

/-- The standard ordering of R129: smallest docked-since uptime, then lowest dock number. -/
def standardOrder (d : DockId) (b : Bike) (y : DockId) (c : Bike) : Prop :=
  b.since < c.since ∨ (b.since = c.since ∧ d.val < y.val)

/-- The electric ordering of R129: highest state of charge, then the standard ordering; an absent one counts as 0. -/
def electricOrder (d : DockId) (b : Bike) (y : DockId) (c : Bike) : Prop :=
  c.soc.getD 0 < b.soc.getD 0 ∨ (b.soc.getD 0 = c.soc.getD 0 ∧ standardOrder d b y c)

/-- The ordering of a kind (R81, R129). -/
def kindOrder (k : BikeKind) (d : DockId) (b : Bike) (y : DockId) (c : Bike) : Prop :=
  (k = .standard → standardOrder d b y c) ∧ (k = .electric → electricOrder d b y c)

/-! ## Reservations (R85 to R87) -/

/-- No entry of the Reservation Table changes, and no held mark of a dock other than `d`. -/
def HoldsStay (s t : State) (d : DockId) : Prop := t.resv = s.resv ∧ ∀ y, y ≠ d → (t.dock y).heldBy = (s.dock y).heldBy

/-- Dock `d` has ceased to qualify for a hold (R85). Its mark is cleared. The hold of a HELD entry moves to the dock that comes
first in the ordering of the entry's kind among the other docks that can give up a bike of that kind, and moved count rises by 1
and holds at 255; with no such dock the entry is LOST and keeps its dock (R86). Either raises RESERVATION_CHANGED (R87). A dock
that no HELD entry holds leaves every hold as it is. -/
def HoldMoved (s t : State) (d : DockId) : Prop :=
  (t.dock d).heldBy = none
  ∧ ((∀ code, (s.dock d).heldBy = some code → heldEntry s.resv code = none) → HoldsStay s t d)
  ∧ ∀ code e, (s.dock d).heldBy = some code → heldEntry s.resv code = some e →
    let entry := fun (f : Reservation → Reservation) => s.resv.map (fun r => if r.ended = none ∧ r.code = code then f r else r)
    t.pendingFor .operator .reservationChanged
    ∧ (∀ x b, x ≠ d → s.offers x b → b.kind = e.kind →
      (∀ y c, y ≠ d → y ≠ x → s.offers y c → c.kind = e.kind → kindOrder e.kind x b y c) →
      t.resv = entry (fun r => { r with dock := x, moved := min (r.moved + 1) 255 }) ∧ (t.dock x).heldBy = some code
        ∧ ∀ y, y ≠ d → y ≠ x → (t.dock y).heldBy = (s.dock y).heldBy)
    ∧ ((∀ x b, x ≠ d → s.offers x b → b.kind ≠ e.kind) →
      t.resv = entry (fun r => { r with ended := some .lost }) ∧ ∀ y, y ≠ d → (t.dock y).heldBy = (s.dock y).heldBy)

/-! ## Commands asked of the line (R117) -/

/-- A command has been asked of the line for dock `d` (R117): nothing is queued for a dock that is not LINKED; a queue of its
class without an entry of `d` takes a new one at its end; an entry of `d` takes the command and keeps its place and its resend
wait. -/
def Asked (s t : State) (k : CommandClass) (d : DockId) (c : LineCommand) : Prop :=
  (s.linked d = false → t.line.queue k = s.line.queue k)
  ∧ (s.linked d = true → entryOf (s.line.queue k) d = none → t.line.queue k = s.line.queue k ++ [⟨d, c, false⟩])
  ∧ ∀ before e after, s.linked d = true → s.line.queue k = before ++ e :: after → e.dock = d →
    (∀ y ∈ before ++ after, y.dock ≠ d) → t.line.queue k = before ++ { e with command := c } :: after

/-! ## Admission (1.4) -/

/-- Steps 1 to 4 pass: the token is well formed, the check word under its slot's key is right, no active range holds it. -/
def passesToken (s : State) (a : Admission) (k : Token) : Prop :=
  k.malformed = false ∧ (∀ key, slotKey a.current a.next k.generation = some key → checkWord key k = k.check)
    ∧ ∀ r ∈ s.tokens.active, ¬ (r.low ≤ k.serial ∧ k.serial ≤ r.high)

/-- Step 5 passes: no used-token entry of the serial, or a FINAL one whose expiry is reached. -/
def passesUsed (s : State) (k : Token) : Prop :=
  ∀ u, usedOf s.tokens.used k.serial = some u → u.isFinal = true ∧ u.expiry ≤ s.uptime

/-- Step 6 passes: the clock did not count as synced, or the held time lies in the graced window (R33). -/
def passesTime (a : Admission) (k : Token) : Prop :=
  a.synced = true → 60 * k.issueMinute ≤ a.time + a.grace ∧ a.time ≤ 60 * k.issueMinute + 60 * k.validity + a.grace

/-- Step 7 passes: no HELD entry carries the token's code, or one of a kind that the token allows. -/
def passesReservation (s : State) (k : Token) : Prop :=
  k.reservation = 0 ∨ ∀ h, heldEntry s.resv k.reservation = some h → h.kind ∈ kindsAllowed k.summary.rider k.summary.wanted

/-- The token takes no reserved path: it carries no code, or no HELD entry carries it. -/
def ordinaryPath (s : State) (k : Token) : Prop := k.reservation = 0 ∨ heldEntry s.resv k.reservation = none

/-- Admission of tag `g` ends in FINAL REFUSED with a reason (R15), and commits nothing. -/
def RefusedWith (s : State) (g : Byte) (why : Reason) : Prop :=
  ∃ t, exec .admissionComplete s = .next t ∧ t.pres.admission = none
    ∧ EndsWith s t g (plainResult g .final (some .refused) (some why) none none)
    ∧ t.clock = s.clock ∧ t.docks = s.docks ∧ t.resv = s.resv ∧ t.refs = s.refs ∧ t.recs = s.recs

end Sys2Proof.Machine
end

