-- ==== Sys2Proof/Certificates/Slice0/Obligations.lean ====
section
/-! DEFINITION. The statements for the provers. A frame is written as `t = { s with x := t.x }`: every component that is not
named after `with` is the one that `s` has. `Executes s p code a payload` says that the port `p` executes that request next
and that the tests of R184 let it through. -/

open Sys2Proof Sys2Proof.Machine

/-! ## The step -/

/-- A step of a state with a command at the front of its queue is that command on the state with the rest of the queue. -/
def Obligations.StepRunsFrontCommand : Prop :=
  ∀ (s : State) (c : Instr) (rest : List Instr), s.pending = c :: rest → step s = exec c { s with pending := rest }

/-- With no command waiting, the part takes its first due event, or a millisecond passes (log entry 2, the model's choice);
the last millisecond of a second is a second boundary (R25). -/
def Obligations.EmptyQueueRunsDueWork : Prop :=
  ∀ s : State, s.pending = [] →
    (∀ c, s.due = some c → step s = exec c s)
      ∧ (s.due = none → s.clock.ms % 1000 = 999 → step s = exec .secondBoundary s)
      ∧ (s.due = none → s.clock.ms % 1000 ≠ 999 →
          step s = .next { s with clock := { s.clock with ms := min (s.clock.ms + 1) Config.maxMs } })

/-- No command stops the part: each answers a next state, and leaves the commands that wait as they were. That this holds of
every row in every state, also of a row whose event cannot arise there, is the model's choice (log entry 1). -/
def Obligations.EveryCommandAnswersNext : Prop :=
  ∀ (c : Instr) (s : State), ∃ t, exec c s = .next t ∧ t.pending = s.pending

/-! ## Invariants -/

/-- The state after a cold reset meets every invariant below. -/
def Obligations.ResetIsSafe : Prop := State.reset.Safe

/-- Unread results and owed results never exceed 48 together (R20). -/
def Obligations.ResultsStayBounded : Prop :=
  ∀ s t : State, s.resultsBounded → step s = .next t → t.resultsBounded

/-- At most 16 presentations are live, no two with the same tag (R3). -/
def Obligations.EntriesStayDistinct : Prop :=
  ∀ s t : State, s.entriesDistinct → step s = .next t → t.entriesDistinct

/-- The offline credit stays between 0 and 16 times C_cap (R35). Uptime and station time stay 32-bit quantities, and last-sync
uptime never exceeds uptime (R25, R26, R27). -/
def Obligations.ClockStaysBounded : Prop :=
  (∀ s t : State, s.creditBounded → step s = .next t → t.creditBounded)
  ∧ (∀ s t : State, s.timesBounded → step s = .next t → t.timesBounded)

/-- A port holds at most 2 outstanding requests, and its error count holds at 255 (R180, R182). -/
def Obligations.PortsStayBounded : Prop :=
  ∀ s t : State, s.portsBounded → step s = .next t → t.portsBounded

/-- The active list stays sorted, without overlap or touch, within 1,024 ranges (R46), and so does the list being loaded
(R49). -/
def Obligations.ListsStayOrdered : Prop :=
  ∀ s t : State, s.listsOrdered → step s = .next t → t.listsOrdered

/-- The used-token table holds at most 96 entries and a serial in at most one (R55), the Referral Table at most 8, no two with
the same id (R65), the Reservation Table at most 16, with a code unique among HELD ones (R78). -/
def Obligations.TablesStayBounded : Prop :=
  ∀ s t : State, s.usedDistinct ∧ s.referralsBounded ∧ s.reservationsDistinct → step s = .next t →
    t.usedDistinct ∧ t.referralsBounded ∧ t.reservationsDistinct

/-- Each command queue of the dock line holds at most one entry for a dock (R117). -/
def Obligations.CommandsStayDistinct : Prop :=
  ∀ s t : State, s.commandsDistinct → step s = .next t → t.commandsDistinct

/-- A dock holds an owed record only while no slot is free, whatever a command does (R173, R174). -/
def Obligations.OwedOnlyWhenFull : Prop :=
  ∀ s t : State, s.owedOnlyWhenFull → step s = .next t → t.owedOnlyWhenFull

/-- The serial memory keeps its canonical form (the model's own form of it, log entry 8). -/
def Obligations.MemoryStaysCanonical : Prop :=
  ∀ s t : State, s.memoryCanonical → step s = .next t → t.memoryCanonical

/-! ## Rules over all commands -/

/-- A request that belongs to the other role alone (11.4) is answered BAD_LENGTH where its payload has not the length that its
code has in 12.3, and otherwise ROLE (R184); nothing else changes. -/
def Obligations.RequestOfTheOtherRoleChangesNothing : Prop :=
  ∀ (s : State) (p : PortId) (r : Request), (s.port p).next = some r →
    (((s.port p).role = some .rider ∧ r.code ∈ requestCodes
        ∧ r.code ∉ ([0x01, 0x02, 0x03, 0x04, 0x05, 0x06, 0x10, 0x11, 0x52, 0x53] : List Byte))
      ∨ ((s.port p).role = some .operator ∧ r.code ∈ ([0x10, 0x11] : List Byte))) →
    exec (requestInstr p r.code) s = .next (s.respond p ⟨if payloadLengthOk r.code r.payload then .role else .badLength, []⟩)

/-- Over all commands but a cold reset: only Set Time changes the synced flag and the last-sync uptime (R27, R28); only Load
Key and Promote Key change a key slot (R41 to R43); the active list and its generation change only at the end of a replacement
and at an insertion (R46); the parameters in force change only by Set Parameter and at the end of a load (R190, R194), and the
roles of the ports only at the end of a load (R188, R194). -/
def Obligations.ChangesOnlyByTheirRows : Prop :=
  ∀ (c : Instr) (s t : State), exec c s = .next t → (∀ n, c ≠ .coldReset n) →
    ((∀ p, c ≠ .setTime p) → t.clock.synced = s.clock.synced ∧ t.clock.lastSync = s.clock.lastSync)
    ∧ ((∀ p, c ≠ .loadKey p) → (∀ p, c ≠ .promoteKey p) →
        t.tokens.current = s.tokens.current ∧ t.tokens.next = s.tokens.next)
    ∧ (c ≠ .revocationReplacementEnd → c ≠ .revokeSerialInsertion →
        t.tokens.active = s.tokens.active ∧ t.tokens.activeGen = s.tokens.activeGen)
    ∧ ((∀ b, c ≠ .configurationLoadEnd b) →
        ((∀ p, c ≠ .setParameter p) → t.cfg.params = s.cfg.params) ∧ t.portA.role = s.portA.role ∧ t.portB.role = s.portB.role)

/-- Whatever command leaves an eligible count different sets AVAILABILITY_CHANGED on each RIDER port (R109), but for the two
resets and the end of a load (log entry 29, the model's choice) and a latch grant whose head stands in DOCKED, which no run
reaches. The lamp of a dock is derived from its state and from its place in an eligible count (R108, R112), and every
transaction carries it in the third byte of its frame (R113). -/
def Obligations.AvailabilityAndLamp : Prop :=
  (∀ (c : Instr) (s t : State), exec c s = .next t → (∀ n, c ≠ .coldReset n) → (∀ p, c ≠ .restartStation p) →
    (∀ b, c ≠ .configurationLoadEnd b) → (c = .latchGrant → ∀ d, s.rel.grantQ.head? = some d → (s.dock d).state ≠ .docked) →
    s.eligibleCount .standard ≠ t.eligibleCount .standard ∨ s.eligibleCount .electric ≠ t.eligibleCount .electric →
    t.pendingFor .rider .availabilityChanged)
  ∧ ∀ (s : State) (d : DockId),
    (s.counted d = true ↔ ∃ b, s.offers d b ∧ (b.kind = .electric → s.cfg.params.releaseThreshold ≤ b.soc.getD 0))
    ∧ ((s.dock d).state = .unknown ∨ (s.dock d).state = .empty ∨ (s.dock d).state = .arriving → s.lamp d = .off)
    ∧ ((s.dock d).state = .docked → s.lamp d = if s.counted d = true then .green else .amber)
    ∧ ((s.dock d).state = .claimed ∨ (s.dock d).state = .unlatching ∨ (s.dock d).state = .pickup → s.lamp d = .greenFlash)
    ∧ ((s.dock d).state = .relock ∨ (s.dock d).state = .fault ∨ (s.dock d).state = .outOfService → s.lamp d = .red)
    ∧ ∀ (c : LineCommand) (n : Nat),
      (s.startTransaction d c n).line.txn.map (fun x => byteAt x.frame 2) = some (s.lamp d).code

/-! ## Ports (chapter 11) -/

/-- At the first byte of a select period the port shifts out its oldest response when that is complete, which is then
delivered, and otherwise a PENDING marker; the byte in is the request code, and 00 is the empty frame (R179). A request frame
that ends becomes outstanding, or is discarded with PORT_FULL when two are (R180, R182); a frame cut short is discarded with
FRAME_SHORT, bytes after a frame's stated length count FRAME_LONG, and the count holds at 255 (R182). That FRAME_LONG is
counted once in a period, however many the bytes, and also after PORT_FULL, is log entry 17. -/
def Obligations.FramesCarried : Prop :=
  (∀ (s : State) (p : PortId) (b : Byte), (∀ c, (s.port p).select ≠ .receiving c) →
    (∀ (q : Request) (r : Response) (rest : List Outstanding), (s.port p).outstanding = ⟨q, .complete r⟩ :: rest →
      exec (.portTransactionStart p (some b)) s = .next (s.setPort p { s.port p with
        outstanding := rest, dataOut := r.bytes, select := if b = 0 then .emptyFrame else .receiving b }))
    ∧ ((∀ o, (s.port p).outstanding.head? = some o → o.isComplete = false) →
      exec (.portTransactionStart p (some b)) s = .next (s.setPort p { s.port p with
        dataOut := pendingMarker (s.port p).outstanding.length,
        select := if b = 0 then .emptyFrame else .receiving b })))
  ∧ (∀ (s : State) (p : PortId),
    (∀ (c : Byte) (payload : List Byte), (s.port p).select = .receiving c → (s.port p).outstanding.length < 2 →
      exec (.requestFrameEnd p payload) s = .next (s.setPort p { s.port p with
        outstanding := (s.port p).outstanding ++ [⟨⟨c, payload⟩, .waiting⟩], select := .ended }))
    ∧ (∀ (c : Byte) (payload : List Byte), (s.port p).select = .receiving c → 2 ≤ (s.port p).outstanding.length →
      exec (.requestFrameEnd p payload) s = .next (s.setPort p { s.port p with
        errorCount := min ((s.port p).errorCount + 1) 255, lastError := some .portFull, select := .ended }))
    ∧ (∀ c : Byte, (s.port p).select = .receiving c →
      exec (.frameShort p) s = .next (s.setPort p { s.port p with
        errorCount := min ((s.port p).errorCount + 1) 255, lastError := some .frameShort, select := .idle }))
    ∧ ((s.port p).select = .ended →
      exec (.bytesAfterStatedLength p) s = .next (s.setPort p { s.port p with
        errorCount := min ((s.port p).errorCount + 1) 255, lastError := some .frameLong, select := .overrun })))

/-- A request whose code names none is answered UNKNOWN_REQUEST, on any port and at any time (R184); No Operation answers
DONE; Read Port Status answers the error record, the role and READY, and clears the error record (R183). Read Station Status
answers the values of R195 and Read Dock Summary the counts of R111 as they stand. Read Dock, Read Line Status and Read Charge
answer one dock's view of docks 1..dock count, and OUT_OF_RANGE for another number (R110, R125, R168); a RIDER port sees the
public fields of Read Dock alone. None of them changes anything else. -/
def Obligations.ReadsAnswer : Prop :=
  (∀ (s : State) (p : PortId),
    (∀ r, (s.port p).next = some r → r.code ∉ requestCodes →
      exec (.unknownRequest p) s = .next (s.respond p ⟨.unknownRequest, []⟩))
    ∧ (Executes s p 0x01 .always [] → exec (.noOperation p) s = .next (s.respond p ⟨.done, []⟩))
    ∧ (Executes s p 0x02 .always [] → exec (.readPortStatus p) s = .next
        ((s.setPort p { s.port p with errorCount := 0, lastError := none }).respond p
          ⟨.done, be16 (s.port p).errorCount ++ optCode PortError.code (s.port p).lastError
            ++ optCode Role.code (s.port p).role ++ yesNo s.cfg.ready⟩)))
  ∧ (∀ (s : State) (p : PortId),
    (Executes s p 0x03 .always [] → exec (.readStationStatus p) s = .next (s.respond p ⟨.done, s.statusBytes⟩))
    ∧ (Executes s p 0x53 .both [] → exec (.readDockSummary p) s = .next (s.respond p
        ⟨.done, be16 (s.eligibleCount .standard) ++ be16 (s.eligibleCount .electric) ++ be16 (s.countState .empty)
          ++ be16 (s.countState .fault) ++ be16 (s.countState .outOfService)⟩)))
  ∧ (∀ (s : State) (p : PortId) (n : Byte),
    (Executes s p 0x52 .both [n] →
      (∀ d, s.dockInUse? n.toNat = some d → exec (.readDock p) s = .next (s.respond p
        ⟨.done, s.dockPublic d ++ if (s.port p).role = some .operator then s.dockPrivate d else []⟩))
      ∧ (s.dockInUse? n.toNat = none → exec (.readDock p) s = .next (s.respond p ⟨.outOfRange, []⟩)))
    ∧ (Executes s p 0x54 .operator [n] →
      (∀ d, s.dockInUse? n.toNat = some d → exec (.readLineStatus p) s = .next (s.respond p ⟨.done, s.lineStatusBytes d⟩))
      ∧ (s.dockInUse? n.toNat = none → exec (.readLineStatus p) s = .next (s.respond p ⟨.outOfRange, []⟩)))
    ∧ (Executes s p 0x56 .operator [n] →
      (∀ d, s.dockInUse? n.toNat = some d → exec (.readCharge p) s = .next (s.respond p ⟨.done, s.chargeBytes d⟩))
      ∧ (s.dockInUse? n.toNat = none → exec (.readCharge p) s = .next (s.respond p ⟨.outOfRange, []⟩))))

/-- Read Used Token, Read Referral, Read Records and Read Parameter change nothing but the response: the entry for a serial
that is not an expired FINAL one, or NOT_FOUND (R64); the open referral of an id whose deadline is not reached, or NOT_FOUND
(R68, R69); at most 4 records from a sequence, or NOT_FOUND (R175); the value in force, or OUT_OF_RANGE (R191). -/
def Obligations.TableReads : Prop :=
  ∀ (s : State) (p : PortId) (payload : List Byte),
    (Executes s p 0x28 .operator payload → payload.length = 4 →
      (beVal payload = 0 → exec (.readUsedToken p) s = .next (s.respond p ⟨.outOfRange, []⟩))
      ∧ (beVal payload ≠ 0 → ∀ e, usedOf s.tokens.used (beVal payload) = some e → e.expired s.uptime = false →
          exec (.readUsedToken p) s = .next (s.respond p ⟨.done, e.bytes⟩))
      ∧ (beVal payload ≠ 0 → (∀ e, usedOf s.tokens.used (beVal payload) = some e → e.expired s.uptime = true) →
          exec (.readUsedToken p) s = .next (s.respond p ⟨.notFound, []⟩)))
    ∧ (∀ id, payload = [id] → Executes s p 0x31 .operator payload →
      (∀ r, referralOf s.refs.opened id = some r → s.clock.ms < r.deadline → s.clock.ms < Config.maxMs →
          exec (.readReferral p) s = .next (s.respond p ⟨.done, s.referralView r ++ yesNo r.fetched⟩))
      ∧ ((∀ r ∈ s.refs.opened, r.id = id → r.deadline ≤ s.clock.ms) →
          exec (.readReferral p) s = .next (s.respond p ⟨.notFound, []⟩)))
    ∧ (Executes s p 0x60 .operator payload → payload.length = 2 →
      ((∀ q ∈ s.recs.records, q.seq ≠ beVal payload) → exec (.readRecords p) s = .next (s.respond p
          ⟨.notFound, optSeq (s.recs.records.head?.map QueuedRecord.seq) ++ be16 s.recs.records.length⟩))
      ∧ (∀ before q after, s.recs.records = before ++ q :: after → (∀ x ∈ before, x.seq ≠ beVal payload) →
          q.seq = beVal payload → exec (.readRecords p) s = .next (s.respond p
            ⟨.done, be16 (min 4 (after.length + 1)) ++ (((q :: after).take 4).map QueuedRecord.bytes).flatten
              ++ optSeq ((after.drop 3).head?.map QueuedRecord.seq) ++ be16 s.recs.records.length⟩)))
    ∧ (∀ id, payload = [id] → Executes s p 0x71 .operator payload →
      (s.cfg.params.get id.toNat = none → exec (.readParameter p) s = .next (s.respond p ⟨.outOfRange, []⟩))
      ∧ (∀ v, s.cfg.params.get id.toNat = some v → 2 < id.toNat →
          exec (.readParameter p) s = .next (s.respond p ⟨.done, be32 v⟩))
      ∧ (∀ v, s.cfg.params.get id.toNat = some v → id.toNat ≤ 2 →
          exec (.readParameter p) s = .next (s.respond p
            ⟨.done, be32 v ++ present be32 (be32 0) (s.pendingValue id.toNat)⟩)))

/-- Set Event Mask sets the enable of each of the port's kinds whose bit is set and clears the others; Clear Events clears the
pending flags of the kinds selected and no other (R187). Read Event returns the kind of the highest priority whose flag is
pending and enabled and clears that flag alone, or answers NONE and changes no flag; either way it shows the pending set
(R186). -/
def Obligations.EventsServed : Prop :=
  (∀ (s : State) (p : PortId) (b : Byte),
    (Executes s p 0x04 .both [b] → ∃ f : EventFlags,
      exec (.setEventMask p) s = .next
        ((s.setPort p { s.port p with enabled := f }).respond p ⟨.done, [f.bits (s.port p).kinds]⟩)
      ∧ ∀ k, f.get k = true ↔ ∃ n, (s.port p).kinds[n]? = some k ∧ b.getLsbD n = true)
    ∧ (Executes s p 0x06 .both [b] → ∃ f : EventFlags,
      exec (.clearEvents p) s = .next
        ((s.setPort p { s.port p with pending := f }).respond p ⟨.done, [f.bits (s.port p).kinds]⟩)
      ∧ ∀ k, f.get k = true ↔ (s.port p).pending.get k = true
          ∧ ¬ ∃ n, (s.port p).kinds[n]? = some k ∧ b.getLsbD n = true))
  ∧ (∀ (s : State) (p : PortId), Executes s p 0x05 .both [] →
    (∀ (n : Nat) (k : EventKind), (s.port p).kinds[n]? = some k → (s.port p).pending.get k = true →
      (s.port p).enabled.get k = true →
      (∀ m < n, ∀ j, (s.port p).kinds[m]? = some j → ((s.port p).pending.get j && (s.port p).enabled.get j) = false) →
      exec (.readEvent p) s = .next ((s.setPort p { s.port p with pending := (s.port p).pending.put k false }).respond p
        ⟨.done, be8 (n + 1) ++ [((s.port p).pending.put k false).bits (s.port p).kinds]⟩))
    ∧ ((s.port p).attn = false →
      exec (.readEvent p) s = .next (s.respond p ⟨.none, [(s.port p).pending.bits (s.port p).kinds]⟩)))

/-! ## Presentations (chapter 1) -/

/-- Present Token makes its tests in order, TAG_IN_USE, PRESENTATIONS_FULL, RESULTS_FULL, and on passing them creates a QUEUED
entry that is owed 3 result units, at the end of the order (R5, R6). Read Result returns and removes the oldest result, or
answers EMPTY (R22). -/
def Obligations.PresentationsTaken : Prop :=
  (∀ (s : State) (p : PortId) (tag : Byte) (token : List Byte), Executes s p 0x10 .rider (tag :: token) →
    token.length = 24 →
    ((∃ e ∈ s.pres.entries, e.tag = tag) → exec (.presentToken p) s = .next (s.respond p ⟨.tagInUse, []⟩))
    ∧ ((∀ e ∈ s.pres.entries, e.tag ≠ tag) → 16 ≤ s.pres.entries.length →
      exec (.presentToken p) s = .next (s.respond p ⟨.presentationsFull, []⟩))
    ∧ ((∀ e ∈ s.pres.entries, e.tag ≠ tag) → s.pres.entries.length < 16 →
      45 < s.pres.results.length + owedTotal s.pres.entries →
      exec (.presentToken p) s = .next (s.respond p ⟨.resultsFull, []⟩))
    ∧ ((∀ e ∈ s.pres.entries, e.tag ≠ tag) → s.pres.entries.length < 16 →
      s.pres.results.length + owedTotal s.pres.entries ≤ 45 →
      exec (.presentToken p) s = .next (({ s with pres := { s.pres with entries := s.pres.entries ++
        [({ tag := tag, summary := (tokenOfBytes token).summary, token := some (tokenOfBytes token), stage := .queued,
            dock := none, alternateUsed := false, reserved := false, creditCharged := 0, slotReserved := false,
            referral := none, offline := false, owed := 3 } : Entry)] } }).respond p ⟨.done, [tag]⟩)))
  ∧ (∀ (s : State) (p : PortId), Executes s p 0x11 .rider [] →
    (∀ r rest, s.pres.results = r :: rest → exec (.readResult p) s = .next
      (({ s with pres := { s.pres with results := rest } }).respond p ⟨.done, r.bytes⟩))
    ∧ (s.pres.results = [] → exec (.readResult p) s = .next (s.respond p ⟨.empty, []⟩)))

/-- Admission of the oldest QUEUED entry starts when none is in progress and no list change waits: the entry is CHECKING, and
station time, grace, the judgement of the sync and the two key slots are taken (R7, R8). -/
def Obligations.AdmissionStarts : Prop :=
  ∀ (s : State) (before after : List Entry) (e : Entry), s.pres.entries = before ++ e :: after →
    (∀ x ∈ before, x.stage ≠ .queued ∧ x.tag ≠ e.tag) → (∀ x ∈ after, x.tag ≠ e.tag) → e.stage = .queued →
    s.pres.admission = none → s.tokens.changes = [] →
    exec .admissionStart s = .next { s with pres := { s.pres with
      entries := before ++ { e with stage := .checking } :: after,
      admission := some { tag := e.tag, time := s.clock.stationTime, grace := s.grace,
                          synced := decide (s.clock.sync = .current) && !s.overAge,
                          current := s.tokens.current, next := s.tokens.next } } }

/-- Admission ends at the first step that refuses, with that step's reason, and commits nothing (R8 to R15). Step 1: a field
out of its range, or the pair STANDARD and ELECTRIC (R1). Step 3: the check word under the slot of the token's generation.
Step 4: an active range that holds the serial. Step 5: a TENTATIVE entry, or a FINAL one that has not expired. Step 6: a
synced clock outside the graced window (R33, R34). Step 7: a HELD reservation of a kind the token does not allow. Step 8: no
dock. Step 9: 96 entries that have not expired. A token that passes them all keeps the earliest mark, its dock and its time
left. -/
def Obligations.AdmissionRefusesByFirstStep : Prop :=
  ∀ (s : State) (a : Admission) (e : Entry) (k : Token), s.pres.admission = some a → s.entry a.tag = some e →
    e.token = some k → e.owed ≠ 0 → s.usedDistinct →
    (k.malformed = true ↔ k.serial = 0 ∨ (k.rider ≠ 1 ∧ k.rider ≠ 2 ∧ k.rider ≠ 3) ∨ (k.wanted ≠ 0 ∧ k.wanted ≠ 1 ∧ k.wanted ≠ 2)
      ∨ 71582788 < k.issueMinute ∨ k.validity = 0 ∨ 240 < k.validity ∨ (k.rider = 1 ∧ k.wanted = 2))
    ∧ (k.malformed = true → RefusedWith s a.tag .malformed)
    ∧ (k.malformed = false → ∀ key, slotKey a.current a.next k.generation = some key → checkWord key k ≠ k.check →
        RefusedWith s a.tag .check)
    ∧ (k.malformed = false → (∀ key, slotKey a.current a.next k.generation = some key → checkWord key k = k.check) →
        (∃ r ∈ s.tokens.active, r.low ≤ k.serial ∧ k.serial ≤ r.high) → RefusedWith s a.tag .revoked)
    ∧ (passesToken s a k → ∀ u, usedOf s.tokens.used k.serial = some u →
        (u.isFinal = false → RefusedWith s a.tag .inUse)
        ∧ (u.isFinal = true → s.uptime < u.expiry → RefusedWith s a.tag .alreadyUsed))
    ∧ (passesToken s a k → passesUsed s k → a.synced = true →
        (a.time + a.grace < 60 * k.issueMinute → RefusedWith s a.tag .notYet)
        ∧ (60 * k.issueMinute ≤ a.time + a.grace → 60 * k.issueMinute + 60 * k.validity + a.grace < a.time →
            RefusedWith s a.tag .expired))
    ∧ (passesToken s a k → passesUsed s k → passesTime a k → ∀ h, k.reservation ≠ 0 →
        heldEntry s.resv k.reservation = some h → h.kind ∉ kindsAllowed k.summary.rider k.summary.wanted →
        RefusedWith s a.tag .reservationMismatch)
    ∧ (passesToken s a k → passesUsed s k → passesTime a k → ordinaryPath s k →
        s.select k.summary.rider k.summary.wanted none = none → RefusedWith s a.tag .noBike)
    ∧ (passesToken s a k → passesUsed s k → passesTime a k → passesReservation s k → ∀ d,
        (ordinaryPath s k → s.select k.summary.rider k.summary.wanted none = some d) →
        (∀ h, k.reservation ≠ 0 → heldEntry s.resv k.reservation = some h → d = h.dock) →
        let left := (s.tokens.used.filter (fun u => decide (¬ (u.isFinal = true ∧ u.expiry ≤ s.uptime)))).length
        (96 ≤ left → RefusedWith s a.tag .tableFull)
        ∧ (left < 96 → ∃ v s1, ({ s with pres := { s.pres with admission := none } }).admissionSteps a k = (s1, .ok v)
          ∧ v.dock = d ∧ (v.reserved = true ↔ ¬ ordinaryPath s k)
          ∧ v.mark = (if slotKey a.current a.next k.generation = none then some .keyUnknown
              else if a.synced = false then some .clockUnsynced
              else if k.reservation ≠ 0 ∧ heldEntry s.resv k.reservation = none then some .reservationUnknown else none)
          ∧ v.timeLeft = (if a.synced = true then 60 * k.issueMinute + 60 * k.validity + a.grace - a.time
              else 60 * k.validity + 2 * a.grace)
          ∧ s1.tokens.used = s.tokens.used.filter (fun u => decide (¬ (u.isFinal = true ∧ u.expiry ≤ s.uptime)))))

/-- Admission completes (R8). The offline route charges the cost, inserts a TENTATIVE entry, reserves a record slot and claims
the dock (R16, R17); on the reserved path it costs nothing, and the reservation ends USED with its dock's mark cleared (R82).
The refer route inserts a TENTATIVE entry, opens a referral under the first id above the last-issued one that no open entry
holds, which is then the last-issued id (R66), raises REFERRAL_WAITING (R67) and produces REFERRED (R18). A route that cannot
be taken ends the admission in FINAL REFUSED with RECORDS_FULL, OFFLINE or REFERRAL_FULL, and a step that refuses with its
reason (R15). -/
def Obligations.AdmissionCompletes : Prop :=
  ∀ (s : State) (a : Admission) (e : Entry) (k : Token), s.pres.admission = some a → s.entry a.tag = some e →
    e.token = some k → e.owed ≠ 0 →
    (∀ why s1, ({ s with pres := { s.pres with admission := none } }).admissionSteps a k = (s1, .error why) →
      ∃ t, exec .admissionComplete s = .next t
        ∧ t = { s with portA := t.portA, portB := t.portB, pres := t.pres,
                       tokens := { s.tokens with used := s1.tokens.used } }
        ∧ t.pres.admission = none ∧ t.pres.entries = s.pres.entries.filter (fun x => decide (x.tag ≠ a.tag))
        ∧ t.pres.results = s.pres.results ++ [plainResult a.tag .final (some .refused) (some why) none none])
    ∧ (∀ v s1, ({ s with pres := { s.pres with admission := none } }).admissionSteps a k = (s1, .ok v) →
      (s1.goesOffline k v = true ↔ v.reserved = true
        ∨ (v.mark = none ∧ k.flags.getLsbD 0 = true ∧ s1.verdictCost k v ≤ s.clock.credit))
      ∧ s1.verdictCost k v = (if v.reserved = true ∨ k.rider = 3 then 0
          else if (s.dock v.dock).bike.map Bike.kind = some .electric then 24 else 16)
      ∧ (s1.goesOffline k v = true → s.slotTest = false → RefusedWith s a.tag .recordsFull)
      ∧ (s1.goesOffline k v = false → s.refs.link = .down → RefusedWith s a.tag .offline)
      ∧ (s1.goesOffline k v = false → s.refs.link = .up → 8 ≤ s.refs.opened.length → RefusedWith s a.tag .referralFull))
    ∧ (∀ v s1, ({ s with pres := { s.pres with admission := none } }).admissionSteps a k = (s1, .ok v) →
      s1.goesOffline k v = true → s.slotTest = true →
      ∃ t, exec .admissionComplete s = .next t
        ∧ t = { s with portA := t.portA, portB := t.portB, pres := t.pres, docks := t.docks, line := t.line, rel := t.rel,
                       charge := t.charge, resv := t.resv, tokens := { s.tokens with used := t.tokens.used },
                       clock := { s.clock with credit := s.clock.credit - s1.verdictCost k v },
                       recs := { s.recs with reserved := s.recs.reserved + 1 } }
        ∧ t.pres.admission = none
        ∧ t.tokens.used = s1.tokens.used ++
            [⟨k.serial, s.afterSeconds v.timeLeft, .tentative e.tag (s1.verdictCost k v)⟩]
        ∧ (t.dock v.dock).state = .claimed ∧ (t.dock v.dock).owner = some (.tag e.tag)
        ∧ (∀ d, d ≠ v.dock → t.dock d = s.dock d)
        ∧ t.entry e.tag = some { e with
            creditCharged := s1.verdictCost k v, slotReserved := true, dock := some v.dock, offline := true,
            reserved := v.reserved, stage := .releasing, token := none }
        ∧ t.pres.results = s.pres.results
        ∧ (v.reserved = false → t.resv = s.resv ∧ (t.dock v.dock).heldBy = (s.dock v.dock).heldBy)
        ∧ (v.reserved = true → ∃ h, heldEntry s.resv k.reservation = some h ∧ v.dock = h.dock
            ∧ ((heldCodes s.resv).Nodup →
                t.resv = s.resv.map (fun r => if r = h then { r with ended := some .used } else r))
            ∧ (t.dock v.dock).heldBy = none ∧ t.pendingFor .operator .reservationChanged))
    ∧ (∀ v s1, ({ s with pres := { s.pres with admission := none } }).admissionSteps a k = (s1, .ok v) →
      s1.goesOffline k v = false → s.refs.link = .up → s.refs.opened.length < 8 →
      ∃ t, exec .admissionComplete s = .next t
        ∧ t = { s with portA := t.portA, portB := t.portB, pres := t.pres, refs := t.refs,
                       tokens := { s.tokens with used := t.tokens.used } }
        ∧ t.tokens.used = s1.tokens.used ++ [⟨k.serial, s.afterSeconds (60 * k.validity), .tentative e.tag 0⟩]
        ∧ (∃ n < 9, t.refs.lastIssued = s.refs.lastIssued + 1 + BitVec.ofNat 8 n
            ∧ (∀ x ∈ s.refs.opened, x.id ≠ t.refs.lastIssued)
            ∧ ∀ m < n, ∃ x ∈ s.refs.opened, x.id = s.refs.lastIssued + 1 + BitVec.ofNat 8 m)
        ∧ t.pendingFor .operator .referralWaiting ∧ t.pendingFor .rider .resultReady
        ∧ t.refs = { s.refs with lastIssued := t.refs.lastIssued, opened := s.refs.opened ++
            [⟨t.refs.lastIssued, e.tag, k, referralReason k v, false,
              s.afterMs (1000 * s.cfg.params.referralTimeout)⟩] }
        ∧ t.pres.results = s.pres.results ++ [plainResult a.tag .referred none (some (referralReason k v)) none none]
        ∧ t.entry e.tag = some { e with
            referral := some t.refs.lastIssued, stage := .referred, token := none, owed := e.owed - 1 })

/-! ## Time and credit (chapter 2) -/

/-- Set Time replaces station time, answers the old one, and makes the sync CURRENT with sync age 0 (R28). A sync whose age
exceeds its lifetime lapses and CLOCK_UNSYNCED is raised (R29), by its own command, or by a Set Time that finds it not yet
taken (log entry 2). A second boundary advances uptime and station time by one, from any millisecond of the second (log entry
5), and at a multiple of 60 makes a refill due (R25, R26, R36); FINAL entries whose expiry is reached are purged and no other
entry is (R62); a due refill is added and clamped at the cap (R36). The count of due refills, one of which a command takes, is
the model's own (log entry 27). -/
def Obligations.ClockMoves : Prop :=
  ∀ s : State,
    (∀ (p : PortId) (payload : List Byte), Executes s p 0x20 .operator payload → payload.length = 4 →
      let lapsing := s.clock.sync = .current ∧ s.cfg.params.syncLifetime < s.uptime - s.clock.lastSync
      let noted := if lapsing then s.raiseFor .operator .clockUnsynced else s
      exec (.setTime p) s = .next (({ noted with clock := { s.clock with
        stationTime := beVal payload, synced := true, lastSync := s.uptime, sync := .current } }).respond p
          ⟨.done, be32 s.clock.stationTime⟩))
    ∧ (s.uptime < Config.max32 → ∃ t, exec .secondBoundary s = .next t
      ∧ t = { s with clock := t.clock } ∧ t.uptime = s.uptime + 1 ∧ t.clock.ms = 1000 * (s.uptime + 1)
      ∧ t.clock = { s.clock with ms := t.clock.ms, stationTime := min (s.clock.stationTime + 1) Config.max32,
                                 refillsDue := s.clock.refillsDue + if t.uptime % 60 = 0 then 1 else 0 })
    ∧ (s.clock.sync = .current → s.cfg.params.syncLifetime < s.uptime - s.clock.lastSync →
      exec .syncLapse s = .next
        (({ s with clock := { s.clock with sync := .lapsed } }).raiseFor .operator .clockUnsynced))
    ∧ (∃ t, exec .usedTokenExpiry s = .next t ∧ t = { s with tokens := { s.tokens with used := t.tokens.used } }
      ∧ t.tokens.used.Sublist s.tokens.used
      ∧ ∀ e, e ∈ t.tokens.used ↔ e ∈ s.tokens.used ∧ (e.isFinal = true → s.uptime < e.expiry))
    ∧ (0 < s.clock.refillsDue → exec .creditRefill s = .next { s with clock := { s.clock with
        credit := min (s.clock.credit + s.cfg.params.refill) (16 * s.cfg.params.cCap),
        refillsDue := s.clock.refillsDue - 1 } })

/-! ## Token Store (chapter 3) -/

/-- Load Key (R42): STATE while CURRENT holds the generation carried, else NEXT takes the generation and the key, and CURRENT
and everything else stay. -/
def Obligations.LoadKeyWritesNext : Prop :=
  OperatorOnly .loadKey 0x21 9
  ∧ ∀ (s : State) (p : PortId) (g : Byte) (key : List Byte), Executes s p 0x21 .operator (g :: key) → key.length = 8 →
    (s.tokens.current.present = true ∧ s.tokens.current.generation = g →
      exec (.loadKey p) s = .next (s.respond p ⟨.state, []⟩))
    ∧ (¬ (s.tokens.current.present = true ∧ s.tokens.current.generation = g) →
      exec (.loadKey p) s = .next
        (({ s with tokens := { s.tokens with next := ⟨true, g, key⟩ } }).respond p ⟨.done, [g]⟩))

/-- Promote Key (R43): STATE while NEXT is empty, else NEXT moves into CURRENT and NEXT becomes empty, its generation and key
cleared to 0. -/
def Obligations.PromoteKeyMovesNext : Prop :=
  OperatorOnly .promoteKey 0x22 0
  ∧ ∀ (s : State) (p : PortId), Executes s p 0x22 .operator [] →
    (s.tokens.next.present = false → exec (.promoteKey p) s = .next (s.respond p ⟨.state, []⟩))
    ∧ (s.tokens.next.present = true → exec (.promoteKey p) s = .next
      (({ s with tokens := { s.tokens with current := s.tokens.next, next := ⟨false, 0, List.replicate 8 0⟩ } }).respond p
        ⟨.done, [s.tokens.next.generation]⟩))

/-- Begin Revocation Load (R48): OUT_OF_RANGE above 1,024 announced in NONE and OPEN, STATE in COMMITTING up to 1,024, else a
new empty loading list with the generation and the announced count, whether or not one was open. A load of announced count 0
can be committed at once, and it then empties the active list. -/
def Obligations.BeginLoadOpens : Prop :=
  OperatorOnly .beginRevocationLoad 0x23 3
  ∧ (∀ (s : State) (p : PortId) (g hi lo : Byte), Executes s p 0x23 .operator [g, hi, lo] →
    (1024 < hi.toNat * 256 + lo.toNat → (∀ l, s.tokens.load ≠ .committing l) →
        exec (.beginRevocationLoad p) s = .next (s.respond p ⟨.outOfRange, []⟩))
    ∧ (hi.toNat * 256 + lo.toNat ≤ 1024 → ∀ l, s.tokens.load = .committing l →
      exec (.beginRevocationLoad p) s = .next (s.respond p ⟨.state, []⟩))
    ∧ (hi.toNat * 256 + lo.toNat ≤ 1024 → (∀ l, s.tokens.load ≠ .committing l) →
      exec (.beginRevocationLoad p) s = .next
        (({ s with tokens := { s.tokens with load := .opened ⟨g, hi.toNat * 256 + lo.toNat, []⟩ } }).respond p ⟨.done, []⟩)))
  ∧ ∀ (s : State) (p : PortId) (g : Byte),
    (Executes s p 0x25 .operator [] → s.tokens.load = .opened ⟨g, 0, []⟩ → exec (.commitRevocationLoad p) s = .next
      (({ s with tokens := { s.tokens with load := .committing ⟨g, 0, []⟩,
                                           changes := s.tokens.changes ++ [ListChange.replacement p] } }).progress p .executing))
    ∧ (∀ rest, s.tokens.load = .committing ⟨g, 0, []⟩ → s.tokens.changes = .replacement p :: rest →
      s.tokens.replacing = true →
      ∃ t, exec .revocationReplacementEnd s = .next t ∧ t.tokens.active = [] ∧ t.tokens.activeGen = g)

/-- Abandon Revocation Load (R51): the OPEN loading list is discarded; in NONE and in COMMITTING it answers STATE, so that a
commit already taken stays. -/
def Obligations.AbandonLoadDiscards : Prop :=
  OperatorOnly .abandonRevocationLoad 0x26 0
  ∧ ∀ (s : State) (p : PortId), Executes s p 0x26 .operator [] →
    (∀ l, s.tokens.load = .opened l → exec (.abandonRevocationLoad p) s = .next
      (({ s with tokens := { s.tokens with load := .none } }).respond p ⟨.done, []⟩))
    ∧ (s.tokens.load = .none → exec (.abandonRevocationLoad p) s = .next (s.respond p ⟨.state, []⟩))
    ∧ (∀ l, s.tokens.load = .committing l → exec (.abandonRevocationLoad p) s = .next (s.respond p ⟨.state, []⟩))

/-- Add Revocation Ranges (R49): the ranges carried are appended exactly when the list then still is sorted, without overlap
or touch, and within its announced count; otherwise the load is discarded, and the first range that fails decides the answer:
ORDER where it is out of order after the ranges before it, COUNT where it is in order and over the announced count. A count
out of range is answered before the load state is tested, here and in Begin Revocation Load: the model's choice, log entry
44. -/
def Obligations.AddRangesKeepsOrder : Prop :=
  (∀ (s : State) (p : PortId) (g hi lo : Byte) (l : LoadingList), Executes s p 0x23 .operator [g, hi, lo] →
    1024 < hi.toNat * 256 + lo.toNat → s.tokens.load = .committing l →
    exec (.beginRevocationLoad p) s = .next (s.respond p ⟨.outOfRange, []⟩))
  ∧ ∀ (s : State) (p : PortId) (n : Byte) (bytes : List Byte), Executes s p 0x24 .operator (n :: bytes) →
    (n.toNat < 1 ∨ 8 < n.toNat → exec (.addRevocationRanges p) s = .next (s.respond p ⟨.outOfRange, []⟩))
    ∧ (1 ≤ n.toNat ∧ n.toNat ≤ 8 → bytes.length = 8 * n.toNat →
      ((∀ l, s.tokens.load ≠ .opened l) → exec (.addRevocationRanges p) s = .next (s.respond p ⟨.state, []⟩))
      ∧ ∀ l, s.tokens.load = .opened l → s.tokens.load.ordered →
        let rs := l.ranges ++ carriedRanges (n :: bytes) n.toNat
        let fits := fun (xs : List SerialRange) => rangesFrom 0 xs = true ∧ xs.length ≤ l.announced
        (fits rs → exec (.addRevocationRanges p) s = .next
          (({ s with tokens := { s.tokens with load := .opened { l with ranges := rs } } }).respond p
            ⟨.done, be16 rs.length⟩))
        ∧ (¬ fits rs → ∃ before r after, carriedRanges (n :: bytes) n.toNat = before ++ r :: after
          ∧ fits (l.ranges ++ before) ∧ ¬ fits (l.ranges ++ before ++ [r])
          ∧ exec (.addRevocationRanges p) s = .next (({ s with tokens := { s.tokens with load := .none } }).respond p
              ⟨if rangesFrom 0 (l.ranges ++ before ++ [r]) = true then .count else .order, []⟩)))

/-- A complete load goes to COMMITTING with its response withheld (R50); its replacement starts when it is the oldest list
change and no admission is in progress, and its end makes the loading list the active list in one step (R50, R53). -/
def Obligations.CommitReplacesActiveList : Prop :=
  ∀ s : State,
    (∀ p, Executes s p 0x25 .operator [] → (∀ l, s.tokens.load ≠ .opened l) →
      exec (.commitRevocationLoad p) s = .next (s.respond p ⟨.state, []⟩))
    ∧ (∀ p l, Executes s p 0x25 .operator [] → s.tokens.load = .opened l →
      (l.ranges.length < l.announced → exec (.commitRevocationLoad p) s = .next (s.respond p ⟨.incomplete, []⟩))
      ∧ (l.announced ≤ l.ranges.length → exec (.commitRevocationLoad p) s = .next
        (({ s with tokens := { s.tokens with
            load := .committing l, changes := s.tokens.changes ++ [ListChange.replacement p] } }).progress p .executing)))
    ∧ (∀ p rest, s.tokens.changes = .replacement p :: rest → s.pres.admission = none → s.tokens.replacing = false →
      exec .revocationReplacementStart s = .next { s with tokens := { s.tokens with replacing := true } })
    ∧ (∀ p rest l, s.tokens.changes = .replacement p :: rest → s.tokens.load = .committing l → s.tokens.replacing = true →
      exec .revocationReplacementEnd s = .next
        (({ s with tokens := { s.tokens with active := l.ranges, activeGen := l.generation, load := .none,
                                             changes := rest, replacing := false } }).respond p
          ⟨.done, [l.generation] ++ be16 l.ranges.length⟩))

/-- Revoke Serial joins the list changes with its response withheld; serial 0 is OUT_OF_RANGE (R52). The insertion makes that
serial revoked and no other, and keeps the list sorted, without overlap or touch; in a full list of 1,024 ranges it is made
where a range covers or touches the serial, and answers LIST_FULL where none does (R52). That DONE carries a yes/no byte for
already revoked and then the count is the model's layout (DEDUCED, log entry 6). -/
def Obligations.SerialRevoked : Prop :=
  (∀ (s : State) (p : PortId) (payload : List Byte), Executes s p 0x27 .operator payload → payload.length = 4 →
    (beVal payload = 0 → exec (.revokeSerial p) s = .next (s.respond p ⟨.outOfRange, []⟩))
    ∧ (beVal payload ≠ 0 → exec (.revokeSerial p) s = .next (({ s with tokens := { s.tokens with
        changes := s.tokens.changes ++ [ListChange.insertion p (beVal payload)] } }).progress p .executing)))
  ∧ ∀ (s : State) (p : PortId) (serial : Nat) (rest : List ListChange),
    s.tokens.changes = .insertion p serial :: rest → s.pres.admission = none → s.listsOrdered →
    (s.tokens.active.length < 1024 ∨ revoked s.tokens.active serial = true
        ∨ (∃ r ∈ s.tokens.active, r.high + 1 = serial ∨ serial + 1 = r.low) →
      ∃ t, exec .revokeSerialInsertion s = .next t
        ∧ t = { s with tokens := { s.tokens with active := t.tokens.active, changes := rest },
                       portA := t.portA, portB := t.portB }
        ∧ Answered s t p ⟨.done, yesNo (revoked s.tokens.active serial) ++ be16 t.tokens.active.length⟩
        ∧ rangesOrdered t.tokens.active
        ∧ ∀ x, revoked t.tokens.active x = (revoked s.tokens.active x || decide (x = serial)))
    ∧ (s.tokens.active.length = 1024 → revoked s.tokens.active serial = false →
      (∀ r ∈ s.tokens.active, r.high + 1 ≠ serial ∧ serial + 1 ≠ r.low) →
      exec .revokeSerialInsertion s = .next
        (({ s with tokens := { s.tokens with changes := rest } }).respond p ⟨.listFull, []⟩))

/-! ## Referrals (chapter 4) -/

/-- Next Referral returns the oldest referral not yet fetched whose deadline is not reached and marks it fetched, or answers
EMPTY (R68); a denial and a reached deadline end a presentation that holds no dock, slot or credit in FINAL REFUSED, DENIED or
TIMED_OUT, with its referral, its TENTATIVE entry and its table entry gone and every other used-token entry kept (R60, R71,
R74); an answer that names no open referral, or one of another serial, is LATE (R70). -/
def Obligations.ReferralsAnswered : Prop :=
  ∀ s : State,
    (∀ p, Executes s p 0x30 .operator [] →
      ((∀ r ∈ s.refs.opened, r.fetched = true ∨ r.deadline ≤ s.clock.ms) →
          exec (.nextReferral p) s = .next (s.respond p ⟨.empty, []⟩))
      ∧ ∀ before r after, s.refs.opened = before ++ r :: after → (∀ x ∈ before, (x.fetched = true ∨ x.deadline ≤ s.clock.ms)
          ∧ x.id ≠ r.id) →
          (∀ x ∈ after, x.id ≠ r.id) → r.fetched = false → s.clock.ms < r.deadline → s.clock.ms < Config.maxMs →
          exec (.nextReferral p) s = .next (({ s with refs := { s.refs with
            opened := before ++ { r with fetched := true } :: after } }).respond p ⟨.done, s.referralView r⟩))
    ∧ (∀ p payload, Executes s p 0x32 .operator payload → payload.length = 8 →
        byteAt payload 5 ≠ 1 → byteAt payload 5 ≠ 2 → exec (.answerReferral p) s = .next (s.respond p ⟨.outOfRange, []⟩))
    ∧ (∀ p payload, Executes s p 0x32 .operator payload → payload.length = 8 →
        (byteAt payload 5 = 2 ∨ (byteAt payload 5 = 1 ∧ 60 ≤ fieldVal payload 6 2 ∧ fieldVal payload 6 2 ≤ 14400)) →
        (∀ r, referralOf s.refs.opened (byteAt payload 0) = some r → r.token.serial ≠ fieldVal payload 1 4) →
        exec (.answerReferral p) s = .next (s.respond p ⟨.late, []⟩))
    ∧ (∀ r e, referralOf s.refs.opened r.id = some r → s.entry r.tag = some e → e.referral = some r.id →
        e.dock = none → e.slotReserved = false → e.creditCharged = 0 → e.owed ≠ 0 → s.creditBounded →
        (∀ p payload, Executes s p 0x32 .operator payload → payload.length = 8 → byteAt payload 0 = r.id →
          fieldVal payload 1 4 = r.token.serial → byteAt payload 5 = 2 →
          ∃ t, exec (.answerReferral p) s = .next t
            ∧ t = { s with portA := t.portA, portB := t.portB, pres := t.pres, refs := t.refs,
                           tokens := { s.tokens with used := t.tokens.used } }
            ∧ Answered s t p ⟨.done, [2]⟩
            ∧ t.refs = { s.refs with opened := s.refs.opened.filter (fun x => decide (x.id ≠ r.id)) }
            ∧ t.tokens.used = s.tokens.used.filter
                (fun x => decide (¬ (x.serial = e.summary.serial ∧ x.ownedBy r.tag = true)))
            ∧ t.pres.entries = s.pres.entries.filter (fun x => decide (x.tag ≠ r.tag))
            ∧ t.pres.results = s.pres.results ++ [plainResult r.tag .final (some .refused) (some .denied) none none])
        ∧ (r.deadline ≤ s.clock.ms → ∃ t, exec (.referralDeadline r.id) s = .next t
            ∧ t = { s with portA := t.portA, portB := t.portB, pres := t.pres, refs := t.refs,
                           tokens := { s.tokens with used := t.tokens.used } }
            ∧ t.refs = { s.refs with opened := s.refs.opened.filter (fun x => decide (x.id ≠ r.id)) }
            ∧ t.tokens.used = s.tokens.used.filter
                (fun x => decide (¬ (x.serial = e.summary.serial ∧ x.ownedBy r.tag = true)))
            ∧ t.pres.entries = s.pres.entries.filter (fun x => decide (x.tag ≠ r.tag))
            ∧ t.pres.results = s.pres.results ++ [plainResult r.tag .final (some .refused) (some .timedOut) none none]))

/-- An approval (R72) of a presentation that is not on the reserved path, since it carries no code or none that a HELD
reservation of an allowed kind carries, claims the dock that selection names, reserves a record slot, removes the referral and
leaves the presentation RELEASING; the other docks and the reservations stay as they are. -/
def Obligations.ApprovalClaims : Prop :=
  ∀ (s : State) (p : PortId) (payload : List Byte) (r : Referral) (e : Entry) (d : DockId),
    Executes s p 0x32 .operator payload → payload.length = 8 → byteAt payload 0 = r.id →
    fieldVal payload 1 4 = r.token.serial → byteAt payload 5 = 1 → 60 ≤ fieldVal payload 6 2 →
    fieldVal payload 6 2 ≤ 14400 → referralOf s.refs.opened r.id = some r → s.entry r.tag = some e →
    (e.summary.reservation = 0 ∨ ∀ h, heldEntry s.resv e.summary.reservation = some h →
      h.kind ∉ kindsAllowed e.summary.rider e.summary.wanted) →
    s.select e.summary.rider e.summary.wanted none = some d → s.slotTest = true →
    ∃ t, exec (.answerReferral p) s = .next t
      ∧ t = { s with portA := t.portA, portB := t.portB, pres := t.pres, refs := t.refs, docks := t.docks, line := t.line,
                     rel := t.rel, charge := t.charge, tokens := { s.tokens with used := t.tokens.used },
                     recs := { s.recs with reserved := s.recs.reserved + 1 } }
      ∧ Answered s t p ⟨.done, [1] ++ be8 (dockNumber d) ++ yesNo false⟩
      ∧ t.tokens.used = s.tokens.used.map (fun x =>
          if x.ownedBy r.tag then { x with expiry := s.afterSeconds (fieldVal payload 6 2) } else x)
      ∧ t.refs = { s.refs with opened := s.refs.opened.filter (fun x => decide (x.id ≠ r.id)) }
      ∧ t.entry r.tag = some { e with
          slotReserved := true, reserved := false, referral := none, dock := some d, stage := .releasing }
      ∧ (t.dock d).state = .claimed ∧ (t.dock d).owner = some (.tag r.tag)
      ∧ (t.dock d).lastSerial = some e.summary.serial ∧ (∀ x, x ≠ d → t.dock x = s.dock x)
      ∧ t.pres.results = s.pres.results

/-- An APPROVE with a validity outside 60 to 14,400 s is OUT_OF_RANGE (R70). An approval that finds no dock on the ordinary
path, or no record slot, ends the presentation FAILED with NO_BIKE or RECORDS_FULL; its referral, its TENTATIVE entry and its
table entry are gone (R72). An approval whose code a HELD reservation of an allowed kind carries claims the held dock, and the
reservation ends USED (R72, R82); any other HELD entry stays as it is. -/
def Obligations.ApprovalEndsOtherwise : Prop :=
  ∀ (s : State) (p : PortId) (payload : List Byte), Executes s p 0x32 .operator payload → payload.length = 8 →
    byteAt payload 5 = 1 →
    (fieldVal payload 6 2 < 60 ∨ 14400 < fieldVal payload 6 2 →
      exec (.answerReferral p) s = .next (s.respond p ⟨.outOfRange, []⟩))
    ∧ ∀ r e, 60 ≤ fieldVal payload 6 2 → fieldVal payload 6 2 ≤ 14400 → byteAt payload 0 = r.id →
      fieldVal payload 1 4 = r.token.serial → referralOf s.refs.opened r.id = some r → s.entry r.tag = some e →
      e.referral = some r.id → e.dock = none → e.slotReserved = false → e.creditCharged = 0 → e.owed ≠ 0 → s.creditBounded →
      (heldCodes s.resv).Nodup →
      let ordinary := e.summary.reservation = 0 ∨ ∀ h, heldEntry s.resv e.summary.reservation = some h →
        h.kind ∉ kindsAllowed e.summary.rider e.summary.wanted
      let ends := fun (why : Reason) => ∃ t, exec (.answerReferral p) s = .next t
        ∧ t = { s with portA := t.portA, portB := t.portB, pres := t.pres, refs := t.refs,
                       tokens := { s.tokens with used := t.tokens.used } }
        ∧ Answered s t p ⟨.done, [3, why.code]⟩
        ∧ t.refs = { s.refs with opened := s.refs.opened.filter (fun x => decide (x.id ≠ r.id)) }
        ∧ (∀ x ∈ t.tokens.used, ¬ (x.serial = e.summary.serial ∧ x.ownedBy r.tag = true))
        ∧ (∀ x, x.ownedBy r.tag = false → (x ∈ t.tokens.used ↔ x ∈ s.tokens.used))
        ∧ t.pres.entries = s.pres.entries.filter (fun x => decide (x.tag ≠ r.tag))
        ∧ t.pres.results = s.pres.results ++ [plainResult r.tag .final (some .failed) (some why) none none]
      (ordinary → s.select e.summary.rider e.summary.wanted none = none → ends .noBike)
      ∧ (¬ ordinary ∨ (s.select e.summary.rider e.summary.wanted none).isSome = true → s.slotTest = false → ends .recordsFull)
      ∧ (∀ h, ¬ ordinary → heldEntry s.resv e.summary.reservation = some h → s.slotTest = true →
        ∃ t, exec (.answerReferral p) s = .next t
          ∧ t = { s with portA := t.portA, portB := t.portB, pres := t.pres, refs := t.refs, docks := t.docks, line := t.line,
                         rel := t.rel, charge := t.charge, resv := t.resv,
                         tokens := { s.tokens with used := t.tokens.used },
                         recs := { s.recs with reserved := s.recs.reserved + 1 } }
          ∧ Answered s t p ⟨.done, [1] ++ be8 (dockNumber h.dock) ++ yesNo true⟩
          ∧ t.tokens.used = s.tokens.used.map (fun x =>
              if x.ownedBy r.tag then { x with expiry := s.afterSeconds (fieldVal payload 6 2) } else x)
          ∧ t.refs = { s.refs with opened := s.refs.opened.filter (fun x => decide (x.id ≠ r.id)) }
          ∧ t.resv = s.resv.map (fun x => if x = h then { x with ended := some .used } else x)
          ∧ t.entry r.tag = some { e with
              slotReserved := true, reserved := true, referral := none, dock := some h.dock, stage := .releasing }
          ∧ (t.dock h.dock).state = .claimed ∧ (t.dock h.dock).owner = some (.tag r.tag) ∧ (t.dock h.dock).heldBy = none
          ∧ (∀ x, x ≠ h.dock → t.dock x = s.dock x) ∧ t.pres.results = s.pres.results
          ∧ t.pendingFor .operator .reservationChanged)

/-- Set Link State (R75): UP sets the link UP; DOWN on a link that is DOWN changes nothing; DOWN on a link that is UP sets it
DOWN and flushes the open referrals: each presentation ends FINAL REFUSED, OFFLINE, in opening order, with its referral and
its TENTATIVE entry gone, and nothing else changes (R76); any other value is OUT_OF_RANGE. -/
def Obligations.LinkStateSet : Prop :=
  ∀ (s : State) (p : PortId) (b : Byte), Executes s p 0x33 .operator [b] →
    (b = 1 → exec (.setLinkState p) s = .next
      (({ s with refs := { s.refs with link := .up } }).respond p ⟨.done, be16 0⟩))
    ∧ (b = 2 → s.refs.link = .down → exec (.setLinkState p) s = .next (s.respond p ⟨.done, be16 0⟩))
    ∧ (b = 2 → s.refs.link = .up →
      (∀ r ∈ s.refs.opened, ∃ e, s.entry r.tag = some e ∧ e.referral = some r.id) →
      ∃ t, exec (.setLinkState p) s = .next t ∧ t.refs = { s.refs with link := .down, opened := [] }
        ∧ (∀ r ∈ s.refs.opened, t.entry r.tag = none)
        ∧ Answered s t p ⟨.done, be16 s.refs.opened.length⟩
        ∧ t.cfg = s.cfg ∧ t.resv = s.resv ∧ t.clock = { s.clock with credit := t.clock.credit }
        ∧ ((s.refs.opened.map Referral.tag).Nodup → s.creditBounded →
          (∀ r ∈ s.refs.opened, ∀ e, s.entry r.tag = some e →
            e.dock = none ∧ e.slotReserved = false ∧ e.creditCharged = 0 ∧ e.owed ≠ 0) →
          t = { s with portA := t.portA, portB := t.portB, pres := t.pres, refs := t.refs,
                       tokens := { s.tokens with used := t.tokens.used } }
          ∧ t.pres.results = s.pres.results ++
              s.refs.opened.map (fun r => plainResult r.tag .final (some .refused) (some .offline) none none)
          ∧ t.pres.entries = s.pres.entries.filter (fun x => decide (x.tag ∉ s.refs.opened.map Referral.tag))
          ∧ t.pres.admission = s.pres.admission ∧ t.tokens.used.Sublist s.tokens.used
          ∧ ∀ u ∈ s.tokens.used, u ∈ t.tokens.used ↔
              ¬ ∃ r ∈ s.refs.opened, ∃ e, s.entry r.tag = some e ∧ u.serial = e.summary.serial ∧ u.ownedBy r.tag = true))
    ∧ (b ≠ 1 → b ≠ 2 → exec (.setLinkState p) s = .next (s.respond p ⟨.outOfRange, []⟩))

/-! ## Selection and reservations (chapters 5 and 8) -/

/-- Selection names an eligible dock (R2, R128) before which no other eligible dock comes in the ordering that applies, and
names none only where no dock is eligible (R129); an electric dock is named on the two-kind path only where no standard one is
eligible. That STAFF with ANY keeps its own ordering when the kinds are narrowed for an alternate is log entry 42. The choice
by kind of Place Reservation names, among the docks that can give up a bike of that kind, the first in its ordering, without
the release threshold (R81). -/
def Obligations.SelectionNamesFirstEligible : Prop :=
  (∀ (rider : RiderClass) (wanted : WantedKind) (k : BikeKind), k ∈ kindsAllowed (some rider) (some wanted) ↔
    (k = .standard ∧ wanted ≠ .electric) ∨ (k = .electric ∧ wanted ≠ .standard ∧ rider ≠ .standard))
  ∧ ∀ (s : State),
    (∀ (rider : RiderClass) (wanted : WantedKind) (narrow : Option BikeKind),
      (∀ d, s.select (some rider) (some wanted) narrow = some d → ∃ b, s.maySelect rider wanted narrow d b
        ∧ ∀ y c, y ≠ d → s.maySelect rider wanted narrow y c →
          (rider = .staff ∧ wanted = .any → standardOrder d b y c)
          ∧ (¬ (rider = .staff ∧ wanted = .any) →
            (c.kind = .standard → b.kind = .standard ∧ standardOrder d b y c)
            ∧ (c.kind = .electric → b.kind = .electric → electricOrder d b y c)))
      ∧ (s.select (some rider) (some wanted) narrow = none ↔ ∀ d b, ¬ s.maySelect rider wanted narrow d b))
    ∧ ∀ (k : BikeKind),
      (∀ d, s.chooseByKind k = some d → ∃ b, s.offers d b ∧ b.kind = k
        ∧ ∀ y c, y ≠ d → s.offers y c → c.kind = k → kindOrder k d b y c)
      ∧ (s.chooseByKind k = none ↔ ∀ d b, s.offers d b → b.kind ≠ k)

/-- Place Reservation (R80, R81). Code 0, a duration outside 60 to 3,600 s and a target outside its range are OUT_OF_RANGE, a
code that is HELD is CODE_IN_USE, and a table of 16 is TABLE_FULL. A dock named is held when it is release-ready, else the
answer is DOCK_BUSY or NO_BIKE, and a kind names the dock that the ordering of R129 puts first; the entry joins the end of the
table and the dock takes the held mark. -/
def Obligations.ReservationPlaced : Prop :=
  ∀ (s : State) (p : PortId) (payload : List Byte), Executes s p 0x40 .operator payload → payload.length = 8 →
    (fieldVal payload 0 4 = 0 ∨ fieldVal payload 4 2 < 60 ∨ 3600 < fieldVal payload 4 2 →
      exec (.placeReservation p) s = .next (s.respond p ⟨.outOfRange, []⟩))
    ∧ (s.placeTarget (byteAt payload 6) (byteAt payload 7) = none →
      exec (.placeReservation p) s = .next (s.respond p ⟨.outOfRange, []⟩))
    ∧ (∀ x, fieldVal payload 0 4 ≠ 0 → 60 ≤ fieldVal payload 4 2 → fieldVal payload 4 2 ≤ 3600 →
      s.placeTarget (byteAt payload 6) (byteAt payload 7) = some x →
      ((heldEntry s.resv (fieldVal payload 0 4)).isSome = true →
        exec (.placeReservation p) s = .next (s.respond p ⟨.codeInUse, []⟩))
      ∧ (heldEntry s.resv (fieldVal payload 0 4) = none → 16 ≤ s.resv.length →
        exec (.placeReservation p) s = .next (s.respond p ⟨.tableFull, []⟩))
      ∧ (heldEntry s.resv (fieldVal payload 0 4) = none → s.resv.length < 16 →
        ∀ d, x = .byDock d → (s.dock d).heldBy.isSome = true ∨ (s.dock d).state.inRelease = true →
        exec (.placeReservation p) s = .next (s.respond p ⟨.dockBusy, []⟩))
      ∧ (heldEntry s.resv (fieldVal payload 0 4) = none → s.resv.length < 16 →
        (∃ d, x = .byDock d ∧ (s.dock d).heldBy = none ∧ (s.dock d).state.inRelease = false ∧ s.releaseReady d = false)
          ∨ (∃ k, x = .byKind k ∧ s.chooseByKind k = none) →
        exec (.placeReservation p) s = .next (s.respond p ⟨.noBike, []⟩))
      ∧ (heldEntry s.resv (fieldVal payload 0 4) = none → s.resv.length < 16 →
        ∀ d k, (x = .byDock d ∧ s.releaseReady d = true ∧ (s.dock d).bike.map Bike.kind = some k)
            ∨ (x = .byKind k ∧ s.chooseByKind k = some d) →
          ∃ t, exec (.placeReservation p) s = .next t
            ∧ t = { s with portA := t.portA, portB := t.portB, resv := t.resv, docks := t.docks }
            ∧ t.resv = s.resv ++ [⟨fieldVal payload 0 4, d, k, s.afterSeconds (fieldVal payload 4 2), none, 0⟩]
            ∧ t.dock d = { s.dock d with heldBy := some (fieldVal payload 0 4) } ∧ (∀ y, y ≠ d → t.dock y = s.dock y)
            ∧ Answered s t p
                ⟨.done, be8 (dockNumber d) ++ [k.code] ++ be32 (s.afterSeconds (fieldVal payload 4 2))⟩))

/-- Cancel Reservation ends a HELD entry CANCELLED and clears its dock's mark, or answers OUT_OF_RANGE for code 0 and
NOT_FOUND for a code that is not HELD (R83); Read Reservations returns every entry and removes the ENDED ones (R88). At the
expiry of HELD reservations each ends EXPIRED, its dock's held mark is cleared and RESERVATION_CHANGED is raised (R84, R87);
nothing else of a dock changes. -/
def Obligations.ReservationsEnd : Prop :=
  (∀ (s : State) (p : PortId),
    (∀ payload, Executes s p 0x41 .operator payload → payload.length = 4 → beVal payload = 0 →
      exec (.cancelReservation p) s = .next (s.respond p ⟨.outOfRange, []⟩))
    ∧ (∀ payload, Executes s p 0x41 .operator payload → payload.length = 4 → beVal payload ≠ 0 →
      (heldEntry s.resv (beVal payload) = none → exec (.cancelReservation p) s = .next (s.respond p ⟨.notFound, []⟩))
      ∧ ∀ e, heldEntry s.resv (beVal payload) = some e → (heldCodes s.resv).Nodup →
        ∃ t, exec (.cancelReservation p) s = .next t
          ∧ t = { s with portA := t.portA, portB := t.portB, resv := t.resv, docks := t.docks }
          ∧ t.resv = s.resv.map (fun r => if r = e then { r with ended := some .cancelled } else r)
          ∧ t.dock e.dock = { s.dock e.dock with heldBy := none } ∧ (∀ y, y ≠ e.dock → t.dock y = s.dock y)
          ∧ (s.portA.role = some .operator → t.portA.pending.reservationChanged = true)
          ∧ (s.portB.role = some .operator → t.portB.pending.reservationChanged = true)
          ∧ Answered s t p ⟨.done, be8 (dockNumber e.dock)⟩)
    ∧ (Executes s p 0x42 .operator [] → exec (.readReservations p) s = .next
      (({ s with resv := s.resv.filter (fun r => r.ended.isNone) }).respond p
        ⟨.done, be16 s.resv.length ++ (s.resv.map Reservation.bytes).flatten⟩)))
  ∧ (∀ s : State, s.reservationsDistinct → ∃ t, exec .reservationExpiry s = .next t
    ∧ t = { s with portA := t.portA, portB := t.portB, resv := t.resv, docks := t.docks }
    ∧ t.resv = s.resv.map (fun r => if r.ended = none ∧ r.expiry ≤ s.uptime then { r with ended := some .expired } else r)
    ∧ ((∃ r ∈ s.resv, r.ended = none ∧ r.expiry ≤ s.uptime) → t.pendingFor .operator .reservationChanged)
    ∧ (∀ d, (∃ r ∈ s.resv, r.ended = none ∧ r.expiry ≤ s.uptime ∧ r.dock = d) →
        t.dock d = { s.dock d with heldBy := none })
    ∧ (∀ d, (∀ r ∈ s.resv, r.ended = none → r.expiry ≤ s.uptime → r.dock ≠ d) → t.dock d = s.dock d))

/-! ## Docks (chapter 6) -/

/-- Clear Fault returns a FAULT dock to UNKNOWN with cause, picture, candidate, bike part, alarm and interrupted cleared, and
answers STATE for another dock (R106). Set Dock Service IN does the same from OUT_OF_SERVICE; OUT takes a dock that is in no
release stage OUT_OF_SERVICE, changes nothing of one that is there, and answers DOCK_BUSY for the others (R107). The hold of a
dock taken OUT moves, or is lost where no dock of its kind qualifies (R85, R86, R87). A dock number or value out of range is
OUT_OF_RANGE. -/
def Obligations.DockServiceAndFaults : Prop :=
  (∀ (s : State) (p : PortId) (n b : Byte),
    (Executes s p 0x50 .operator [n] → s.dockInUse? n.toNat = none →
      exec (.clearFault p) s = .next (s.respond p ⟨.outOfRange, []⟩))
    ∧ (Executes s p 0x51 .operator [n, b] → s.dockInUse? n.toNat = none ∨ b ≠ 1 ∧ b ≠ 2 →
      exec (.setDockService p) s = .next (s.respond p ⟨.outOfRange, []⟩)))
  ∧ ∀ (s : State) (p : PortId) (n : Byte) (d : DockId), s.dockInUse? n.toNat = some d →
    (Executes s p 0x50 .operator [n] →
      ((s.dock d).state = .fault → exec (.clearFault p) s = .next ((s.setDock d { s.dock d with
          state := .unknown, faultCause := none, picture := none, candidate := none, count := 0, bike := none,
          alarm := false, interrupted := false }).respond p ⟨.done, []⟩))
      ∧ ((s.dock d).state ≠ .fault → exec (.clearFault p) s = .next (s.respond p ⟨.state, []⟩)))
    ∧ (Executes s p 0x51 .operator [n, 2] →
      ((s.dock d).state = .outOfService → exec (.setDockService p) s = .next ((s.setDock d { s.dock d with
          state := .unknown, faultCause := none, picture := none, candidate := none, count := 0, bike := none,
          alarm := false, interrupted := false }).respond p ⟨.done, []⟩))
      ∧ ((s.dock d).state ≠ .outOfService → exec (.setDockService p) s = .next (s.respond p ⟨.state, []⟩)))
    ∧ (Executes s p 0x51 .operator [n, 1] →
      ((s.dock d).state.inRelease = true → exec (.setDockService p) s = .next (s.respond p ⟨.dockBusy, []⟩))
      ∧ ((s.dock d).state = .outOfService → exec (.setDockService p) s = .next (s.respond p ⟨.done, []⟩))
      ∧ ((s.dock d).state.inRelease = false → (s.dock d).state ≠ .outOfService →
        ∃ t, exec (.setDockService p) s = .next t ∧ Answered s t p ⟨.done, []⟩
          ∧ t = { s with portA := t.portA, portB := t.portB, resv := t.resv, docks := t.docks, line := t.line,
                         charge := t.charge }
          ∧ t.dock d = { s.dock d with state := .outOfService, faultCause := none, candidate := none, count := 0,
                                       interrupted := false, heldBy := none }
          ∧ (∀ x, x ≠ d → t.dock x = { s.dock x with heldBy := (t.dock x).heldBy })
          ∧ HoldMoved s t d ∧ (t.chg d).contract = none))

/-- A report weighed against picture and candidate changes only the fields of R90 and the count, while nothing is confirmed
(R90, R91): contents that match the picture clear the candidate, contents that do not raise its count. Of a report that comes
while the link is not LINKED and does not become so, the Dock Table takes the applied level alone. -/
def Obligations.ReportsAreCounted : Prop :=
  ∀ (s : State) (x : Transaction) (bytes : List Byte) (r : Report),
    (ReportArrives s x bytes r → r.contents.code ≠ .short →
      ((s.dock x.dock).state = .empty → r.contents.code = .noBike) →
      (r.latch = .closed → (s.dock x.dock).state ≠ .relock) →
      (r.latch = .opened → (s.dock x.dock).state ≠ .docked ∧ (s.dock x.dock).state ≠ .claimed
        ∧ (s.dock x.dock).state ≠ .unlatching) →
      ∃ t, exec (.dockReportReceived bytes) s = .next t
        ∧ ((s.dock x.dock).steady r.contents ∨ (s.dock x.dock).countWith r.contents < s.cfg.params.confirmAt r.contents →
          t = { s with portA := t.portA, portB := t.portB, docks := t.docks, line := t.line, rel := t.rel, charge := t.charge }
          ∧ ∀ y, y ≠ x.dock → t.dock y = s.dock y)
        ∧ ((s.dock x.dock).steady r.contents → t.dock x.dock = { s.dock x.dock with
            latch := some r.latch, applied := r.applied, bike := (s.dock x.dock).bike.map r.refresh,
            candidate := none, count := 0 })
        ∧ (¬ (s.dock x.dock).steady r.contents → (s.dock x.dock).state ≠ .empty →
          (s.dock x.dock).countWith r.contents < s.cfg.params.confirmAt r.contents →
          t.dock x.dock = { s.dock x.dock with
            latch := some r.latch, applied := r.applied, bike := (s.dock x.dock).bike.map r.refresh,
            candidate := some (match (s.dock x.dock).candidate with
              | some c => if c.same r.contents = true then c else r.contents
              | none => r.contents),
            count := (s.dock x.dock).countWith r.contents }))
    ∧ (AnswerArrives s x bytes r → (s.link x.dock).state ≠ .linked →
      (s.link x.dock).good + 1 < s.cfg.params.mUp →
      ∃ t, exec (.dockReportReceived bytes) s = .next t
        ∧ t = { s with portA := t.portA, portB := t.portB, docks := t.docks, line := t.line, rel := t.rel, charge := t.charge }
        ∧ t.dock x.dock = { s.dock x.dock with applied := r.applied } ∧ ∀ y, y ≠ x.dock → t.dock y = s.dock y)

/-- What a report does to a dock that holds no DOCKED bike. UNKNOWN learns its contents without a RETURN record, with an
ANOMALY where an interrupted claim's bike is gone (R92). EMPTY goes to ARRIVING at other contents, and ARRIVING confirms a
return, a near miss or a fault (R93); a return is DOCKED, or RELOCK with the latch OPEN, writes a RETURN and applies the
bounce rule (R94, R149, R173), and an electric one opens a contract (R151). FAULT and OUT_OF_SERVICE keep their state and
cause, and take the bike part along with what they confirm (R102). -/
def Obligations.ArrivalsAndLearning : Prop :=
  ∀ (s : State) (x : Transaction) (bytes : List Byte) (r : Report), ReportArrives s x bytes r →
    ∀ k, k = s.dock x.dock →
    (k.state = .unknown ∨ k.state = .empty ∨ k.state = .arriving ∨ k.state = .fault ∨ k.state = .outOfService) →
    ∃ t, exec (.dockReportReceived bytes) s = .next t ∧ t.pres = s.pres ∧ (k.heldBy = none → HoldsStay s t x.dock)
      ∧ (r.contents.code = .short → k.state ≠ .fault → k.state ≠ .outOfService →
        FaultEntered t x.dock .short ∧ t.recs = s.recs)
      ∧ (k.state = .empty → r.contents.code ≠ .short → r.contents.code ≠ .noBike →
        1 < s.cfg.params.confirmAt r.contents → t.recs = s.recs ∧ t.dock x.dock = { k with
          state := .arriving, picture := none, candidate := some r.contents, count := 1,
          latch := some r.latch, applied := r.applied, bike := k.bike.map r.refresh })
      ∧ (k.confirms s.cfg.params r.contents → r.contents.code = .noBike → k.state = .arriving →
        (t.dock x.dock).state = .empty ∧ (t.dock x.dock).bike = none ∧ t.recs = s.recs)
      ∧ (k.confirms s.cfg.params r.contents → r.contents.code = .noBike → k.state = .unknown →
        (t.dock x.dock).state = .empty ∧ (t.dock x.dock).bike = none ∧ (t.dock x.dock).interrupted = false
        ∧ (k.interrupted = false → t.recs = s.recs)
        ∧ (k.interrupted = true → HandedOver s t (s.tripRecord .anomaly x.dock none k.lastSerial)))
      ∧ (((k.state = .unknown ∨ k.state = .arriving) ∧ k.confirms s.cfg.params r.contents
            ∨ k.state = .empty ∧ r.contents.code ≠ .short ∧ s.cfg.params.confirmAt r.contents ≤ 1) →
        (r.contents.code = .misseated → FaultEntered t x.dock .misseated ∧ t.recs = s.recs)
        ∧ ∀ kind, r.contents.code.bikeKind = some kind →
          (t.dock x.dock).bike = some (s.bikeOf r kind)
          ∧ (r.contents.tag = .conflict → FaultEntered t x.dock .tagConflict)
          ∧ (r.contents.tag ≠ .conflict → r.latch = .closed →
            (t.dock x.dock).state = .docked ∧ (t.dock x.dock).owner = none
            ∧ (r.contents.tag = .none → (t.dock x.dock).alarm = true ∧ t.pendingFor .operator .dockFault)
            ∧ (kind = .electric → (t.chg x.dock).contract ≠ none))
          ∧ (r.contents.tag ≠ .conflict → r.latch = .opened →
            (t.dock x.dock).state = .relock ∧ (t.dock x.dock).owner = none
            ∧ (t.dock x.dock).deadline = some (s.afterMs (1000 * s.cfg.params.relockTime))
            ∧ .latchClose ∈ t.commandsFor x.dock .latch)
          ∧ (k.state = .unknown → t.recs = s.recs ∧ t.tokens = s.tokens ∧ t.clock = s.clock ∧ (t.dock x.dock).interrupted = false)
          ∧ (k.state ≠ .unknown → Returned s t x.dock r.contents.tag.number false))
      ∧ (k.state = .fault ∨ k.state = .outOfService →
        (t.dock x.dock).state = k.state ∧ (t.dock x.dock).faultCause = k.faultCause
        ∧ (k.confirms s.cfg.params r.contents →
          (r.contents.code = .noBike → (t.dock x.dock).bike = none ∧ t.recs = s.recs)
          ∧ (r.contents.code = .misseated ∨ r.contents.tag = .conflict ∧ r.contents.code ≠ .noBike →
            (t.dock x.dock).bike = k.bike.map r.refresh ∧ t.recs = s.recs)
          ∧ ∀ kind, r.contents.code.bikeKind = some kind → r.contents.tag ≠ .conflict →
            ((k.bike = none ∨ ∃ b, k.bike = some b ∧ (b.kind ≠ kind
                ∨ ∃ m n, b.number = some m ∧ r.contents.tag = .ok n ∧ n ≠ m)) →
              (t.dock x.dock).bike = some (s.bikeOf r kind) ∧ Returned s t x.dock r.contents.tag.number true)
            ∧ (∀ b, k.bike = some b → b.kind = kind → (b.number = none ∨ r.contents.tag.number = none
                ∨ b.number = r.contents.tag.number) →
              (t.dock x.dock).bike = some { r.refresh b with number := r.contents.tag.number } ∧ t.recs = s.recs
              ∧ t.tokens = s.tokens)))

/-- What a report does to a DOCKED dock (R96 to R101). Latch OPEN is LATCH_FORCED and SHORT is SHORT at once. Confirmed
contents: NO_BIKE writes an ANOMALY and empties the dock; MISSEATED or the other bike code is MISSEATED; tag CONFLICT is
TAG_CONFLICT; another number is TAG_MISMATCH, with an ANOMALY for the old bike and a RETURN with FOUND for the new one; tag
NONE loses the identity and tag OK gains it, with the dock staying DOCKED. The hold of a dock that leaves DOCKED or loses its
identity moves or is lost (R85, R86, R87); a gain leaves every hold. That an OPEN and SHORT report is a forced latch is log
entry 46. -/
def Obligations.DockedReportsAct : Prop :=
  ∀ (s : State) (x : Transaction) (bytes : List Byte) (r : Report), ReportArrives s x bytes r →
    (s.dock x.dock).state = .docked →
    ∃ t, exec (.dockReportReceived bytes) s = .next t ∧ t.pres = s.pres
      ∧ (t.dock x.dock).latch = some r.latch ∧ (t.dock x.dock).applied = r.applied
      ∧ (r.latch = .opened → FaultEntered t x.dock .latchForced ∧ HoldMoved s t x.dock)
      ∧ (r.latch = .closed → r.contents.code = .short → FaultEntered t x.dock .short ∧ t.recs = s.recs
        ∧ HoldMoved s t x.dock)
      ∧ ∀ b, (s.dock x.dock).bike = some b → r.latch = .closed → (s.dock x.dock).confirms s.cfg.params r.contents →
        (r.contents.code = .noBike → (t.dock x.dock).state = .empty ∧ (t.dock x.dock).bike = none
          ∧ HoldMoved s t x.dock ∧ (t.dock x.dock).alarm = false ∧ (t.chg x.dock).contract = none
          ∧ (t.dock x.dock).picture = some ⟨.noBike, .none⟩
          ∧ HandedOver s t (s.tripRecord .anomaly x.dock b.number (s.dock x.dock).lastSerial))
        ∧ (r.contents.code ≠ .noBike → r.contents.code.bikeKind ≠ some b.kind →
          FaultEntered t x.dock .misseated ∧ (t.dock x.dock).bike = some (r.refresh b) ∧ t.recs = s.recs
          ∧ HoldMoved s t x.dock)
        ∧ (r.contents.code.bikeKind = some b.kind → r.contents.tag = .conflict →
          FaultEntered t x.dock .tagConflict ∧ (t.dock x.dock).bike = some (r.refresh b) ∧ t.recs = s.recs
          ∧ HoldMoved s t x.dock)
        ∧ (∀ m n, r.contents.code.bikeKind = some b.kind → r.contents.tag = .ok n → b.number = some m → n ≠ m →
          FaultEntered t x.dock .tagMismatch ∧ (t.dock x.dock).bike = some (s.bikeOf r b.kind) ∧ (t.dock x.dock).alarm = false
          ∧ HoldMoved s t x.dock
          ∧ (2 ≤ s.freeSlots → ∃ bounced, t.recs =
              (s.recs.joined (s.tripRecord .anomaly x.dock (some m) (s.dock x.dock).lastSerial)).joined
                { s.tripRecord .bikeReturn x.dock (some n) none with bounce := bounced, found := true }))
        ∧ (∀ m, r.contents.code.bikeKind = some b.kind → r.contents.tag = .none → b.number = some m →
          (t.dock x.dock).state = .docked ∧ (t.dock x.dock).bike = some { r.refresh b with number := none }
          ∧ (t.dock x.dock).alarm = true ∧ HoldMoved s t x.dock ∧ t.recs = s.recs
          ∧ ((s.dock x.dock).alarm = false → t.pendingFor .operator .dockFault))
        ∧ (∀ n, r.contents.code.bikeKind = some b.kind → r.contents.tag = .ok n → b.number = none →
          (t.dock x.dock).state = .docked ∧ (t.dock x.dock).bike = some { r.refresh b with number := some n }
          ∧ (t.dock x.dock).alarm = false ∧ t.recs = s.recs
          ∧ HoldsStay s t x.dock ∧ (t.dock x.dock).heldBy = (s.dock x.dock).heldBy)

/-! ## Release (chapter 8) -/

/-- Service Release claims a DOCKED, LINKED dock for SERVICE and reserves a record slot (R147); a hold of the dock moves to
the first dock of its kind that qualifies, or is lost (R85, R86, R87). A dock that is not DOCKED and LINKED is DOCK_BUSY,
without a slot it is RECORDS_FULL, and a dock number outside 1..dock count is OUT_OF_RANGE. -/
def Obligations.ServiceReleaseClaims : Prop :=
  (∀ (s : State) (p : PortId) (n : Byte), Executes s p 0x55 .operator [n] → s.dockInUse? n.toNat = none →
    exec (.serviceRelease p) s = .next (s.respond p ⟨.outOfRange, []⟩))
  ∧ ∀ (s : State) (p : PortId) (n : Byte) (d : DockId), Executes s p 0x55 .operator [n] → s.dockInUse? n.toNat = some d →
    (¬ ((s.dock d).state = .docked ∧ s.linked d = true) →
      exec (.serviceRelease p) s = .next (s.respond p ⟨.dockBusy, []⟩))
    ∧ ((s.dock d).state = .docked → s.linked d = true → 112 ≤ s.recs.records.length + s.recs.reserved →
      exec (.serviceRelease p) s = .next (s.respond p ⟨.recordsFull, []⟩))
    ∧ ((s.dock d).state = .docked → s.linked d = true → s.recs.records.length + s.recs.reserved < 112 →
      ∃ t, exec (.serviceRelease p) s = .next t
        ∧ t = { s with portA := t.portA, portB := t.portB, resv := t.resv, docks := t.docks, line := t.line, rel := t.rel,
                       charge := t.charge, recs := { s.recs with reserved := s.recs.reserved + 1 } }
        ∧ t.dock d = { s.dock d with
            state := .claimed, owner := some .service, lastSerial := none, attempts := 0, heldBy := none,
            deadline := some (s.afterMs (1000 * s.cfg.params.claimTimeout)) }
        ∧ (∀ x, x ≠ d → t.dock x = { s.dock x with heldBy := (t.dock x).heldBy })
        ∧ HoldMoved s t d ∧ (t.chg d).held = true
        ∧ Answered s t p ⟨.done, be8 (dockNumber d) ++ optBike ((s.dock d).bike.bind Bike.number)⟩)

/-- The head of the latch grant queue, with a slot free and the headroom at least P_latch, is granted: a pulse begins, the
dock enters UNLATCHING with one attempt and a confirm deadline, and LATCH_OPEN is asked for, which a LINKED dock has queued
(R117, R132). -/
def Obligations.LatchGranted : Prop :=
  ∀ (s : State) (d : DockId) (rest : List DockId), s.rel.grantQ = d :: rest → s.rel.pulses < s.cfg.params.lSlots →
    (s.cfg.params.pLatch : Int) ≤ s.headroom →
    ∃ t, exec .latchGrant s = .next t
      ∧ t = { s with rel := t.rel, charge := t.charge, docks := t.docks,
                     line := { s.line with latchQ := t.line.latchQ, chargeQ := t.line.chargeQ, txn := t.line.txn } }
      ∧ t.rel.grantQ = rest ∧ t.rel.pulses = s.rel.pulses + 1 ∧ (t.relState d).map ReleaseState.pulse = some true
      ∧ (∀ x, x ≠ d → t.relState x = s.relState x)
      ∧ t.dock d = { s.dock d with
          attempts := 1, state := .unlatching, deadline := some (s.afterMs s.cfg.params.latchConfirm) }
      ∧ (∀ x, x ≠ d → t.dock x = s.dock x)
      ∧ (s.linked d = true → (entryOf t.line.latchQ d).map LineEntry.command = some .latchOpen)
      ∧ Asked s t .latch d .latchOpen

/-- What a report does to a release, of a presentation, of SERVICE and of a relock without an owner. The latch seen open in
CLAIMED or UNLATCHING leads to PICKUP, with DIRECTED for a presentation, whatever the contents, which are counted (R134);
where the same report confirms the removal, the release then completes (R138). A removal confirmed in PICKUP, in RELOCK (LATE,
R140) or in UNLATCHING completes the release (R138, R148), after a stale wait with UNOBSERVED (R145); in a relock without an
owner it is an ANOMALY (R142). A removal in CLAIMED is an ANOMALY, and a contact fault in CLAIMED or UNLATCHING a FAULT with
the records of its DOCKED rule; either attempt fails, JAMMED (R136, R137). A contact fault in PICKUP or RELOCK is noted, the
first one only (R141). A bike in place with the latch CLOSED ends RELOCK: DOCKED, or FAULT with the noted cause and its
records, and a claim ends NOT_TAKEN with its rollback or the service undo (R140, R141, R142, R148). R104 gives the notices of
one report no order: that a report which shows the latch OPEN and a contact fault or a removal in CLAIMED or UNLATCHING leads
to PICKUP, with the fault noted and not to JAMMED, or to DIRECTED and a release without an ANOMALY, and that one in RELOCK
which shows a contact fault and confirms the bike has the fault noted before the relock ends, is the model's choice, log entry
20. -/
def Obligations.ReleaseReports : Prop :=
  ∀ (s : State) (x : Transaction) (bytes : List Byte) (r : Report) (o : Option Owner), ReportArrives s x bytes r →
    OwnedBy s x.dock o → (s.dock x.dock).heldBy = none → s.owedOnlyWhenFull → ∀ k, k = s.dock x.dock →
    k.state.inRelease = true → (o = none → k.state = .relock) →
    let shown := k.faultShown s.cfg.params r.contents
    let anomaly := fun y : State => y.handOver (s.tripRecord .anomaly x.dock (k.bike.bind Bike.number) k.lastSerial)
    let notTaken := fun g => plainResult g .final (some .notTaken) none (some x.dock) (k.bike.bind Bike.number)
    ∃ t, exec (.dockReportReceived bytes) s = .next t ∧ HoldsStay s t x.dock
      ∧ (k.state = .claimed ∨ k.state = .unlatching → r.latch = .opened →
        ¬ (r.contents.code = .noBike ∧ k.confirms s.cfg.params r.contents) →
        (t.dock x.dock).state = .pickup ∧ (t.dock x.dock).owner = o
        ∧ (t.dock x.dock).deadline = some (s.afterMs (1000 * s.cfg.params.pickupWindow))
        ∧ x.dock ∉ t.rel.grantQ ∧ (t.relState x.dock).all (fun q => !q.pulse) = true
        ∧ t.recs = s.recs ∧ t.tokens = s.tokens ∧ t.clock = s.clock
        ∧ (∀ cause q, shown cause → s.relState x.dock = some q →
          (t.relState x.dock).map ReleaseState.noted = some (some (q.noted.getD ⟨cause, r.contents⟩)))
        ∧ ((∀ cause, ¬ shown cause) →
          (t.relState x.dock).map ReleaseState.noted = (s.relState x.dock).map ReleaseState.noted)
        ∧ (t.dock x.dock).bike = k.bike.map r.refresh
        ∧ (r.contents.code ≠ .short → ¬ k.steady r.contents → k.countWith r.contents < s.cfg.params.confirmAt r.contents →
          (t.dock x.dock).picture = k.picture ∧ (t.dock x.dock).count = k.countWith r.contents
          ∧ ∃ y, (t.dock x.dock).candidate = some y ∧ y.same r.contents = true)
        ∧ (k.steady r.contents ∨ r.contents.code = .short → (t.dock x.dock).picture = k.picture
          ∧ (t.dock x.dock).count = 0 ∧ (t.dock x.dock).candidate = none)
        ∧ (∀ g e, o = some (.tag g) → s.entry g = some e → t.entry g = some { e with owed := e.owed - 1 }
          ∧ t.pres.results = s.pres.results ++
              [plainResult g .directed none none (some x.dock) (k.bike.bind Bike.number)]
          ∧ t.pendingFor .rider .resultReady)
        ∧ (o = some .service → t.pres = s.pres))
      ∧ (k.state = .claimed ∨ k.state = .unlatching → r.latch = .opened → r.contents.code = .noBike →
        k.confirms s.cfg.params r.contents → 0 < s.recs.reserved → (s.relState x.dock).bind ReleaseState.stale = none →
        (∀ g e, o = some (.tag g) → s.entry g = some e → 2 ≤ e.owed →
          ReleaseCompleted { s with pres := { s.pres with results := s.pres.results ++
            [plainResult g .directed none none (some x.dock) (k.bike.bind Bike.number)] } } t x.dock o false false)
        ∧ (o = some .service → ReleaseCompleted s t x.dock o false false))
      ∧ (∀ late unobserved, o ≠ none → k.confirms s.cfg.params r.contents → r.contents.code = .noBike →
        (k.state = .unlatching ∧ r.latch = .closed ∧ late = false ∧ unobserved = false
          ∨ (k.state = .pickup ∨ k.state = .relock)
            ∧ ((s.relState x.dock).bind ReleaseState.stale = none ∧ late = decide (k.state = .relock) ∧ unobserved = false
              ∨ ∃ st, (s.relState x.dock).bind ReleaseState.stale = some st ∧ late = decide (st = .relock)
                  ∧ unobserved = true)) →
        0 < s.recs.reserved → ReleaseCompleted s t x.dock o late unobserved)
      ∧ (k.confirms s.cfg.params r.contents → r.contents.code = .noBike →
        k.state = .claimed ∧ r.latch = .closed ∨ o = none →
        (t.dock x.dock).state = .empty ∧ (t.dock x.dock).bike = none ∧ (t.dock x.dock).owner = none
        ∧ t.relState x.dock = none ∧ (t.chg x.dock).contract = none
        ∧ ClaimFailed s t ⟨anomaly, id⟩ x.dock o .jammed)
      ∧ (∀ cause, k.state = .claimed ∨ k.state = .unlatching → r.latch = .closed → shown cause →
        FaultEntered t x.dock cause ∧ t.relState x.dock = none
        ∧ ClaimFailed s t ⟨s.faultRecords x.dock cause r.contents, id⟩ x.dock o .jammed)
      ∧ (∀ cause q, k.state = .pickup ∨ k.state = .relock → shown cause → s.relState x.dock = some q →
        k.state = .pickup ∨ r.latch = .opened ∨ r.contents.code.bikeKind = none →
        t.relState x.dock = some { q with noted := some (q.noted.getD ⟨cause, r.contents⟩) }
        ∧ (t.dock x.dock).state = k.state ∧ (t.dock x.dock).owner = o ∧ (t.dock x.dock).bike = k.bike.map r.refresh
        ∧ t.pres = s.pres ∧ t.recs = s.recs ∧ t.tokens = s.tokens)
      ∧ (∀ q, k.state = .relock → r.latch = .closed → r.contents.code.bikeKind.isSome = true → s.relState x.dock = some q →
        k.steady r.contents ∨ k.confirms s.cfg.params r.contents →
        (q.noted = none → (∀ cause, ¬ shown cause) →
          (t.dock x.dock).state = .docked ∧ (t.dock x.dock).owner = none ∧ (t.dock x.dock).deadline = none
          ∧ t.relState x.dock = none ∧ (o ≠ none → (t.chg x.dock).held = false)
          ∧ (k.bike.map Bike.kind = some .electric → (t.chg x.dock).contract ≠ none)
          ∧ ClaimUndone s t .nothing o notTaken)
        ∧ ∀ f : NotedFault, q.noted = some f ∨ q.noted = none ∧ shown f.cause ∧ f.contents = r.contents →
          FaultEntered t x.dock f.cause ∧ t.relState x.dock = none
          ∧ ClaimUndone s t ⟨id, s.faultRecords x.dock f.cause f.contents⟩ o notTaken)

/-- The deadlines of a release before the bike leaves (R133, R135, R139), of a presentation and of SERVICE. A claim that times
out returns the dock to DOCKED and ends the presentation in FAILED, CLAIM_TIMEOUT, with its rollback; a SERVICE claim has the
service undo (R148). A confirm deadline repeats the attempt while retries remain; else the dock is FAULT with cause JAM and
the attempt fails, JAMMED (R136). A pickup deadline asks for the close and enters RELOCK, the claim kept. A command asked for
stands in its queue as R117 states. -/
def Obligations.StageDeadlines : Prop :=
  ∀ (s : State) (d : DockId) (x : Nat), (s.dock d).deadline = some x → x ≤ s.clock.ms →
    (∀ o, (s.dock d).state = .claimed → OwnedBy s d o → s.owedOnlyWhenFull →
      ∃ t, exec (.claimDeadline d) s = .next t ∧ (t.dock d).state = .docked ∧ (t.dock d).owner = none
        ∧ t.relState d = none ∧ d ∉ t.rel.grantQ ∧ (t.chg d).held = false ∧ t.cfg = s.cfg ∧ t.resv = s.resv
        ∧ ClaimUndone s t .nothing o (fun g => plainResult g .final (some .failed) (some .claimTimeout) (some d) none))
    ∧ ((s.dock d).state = .unlatching → (s.dock d).attempts ≤ s.cfg.params.latchRetries →
      ∃ t, exec (.confirmDeadline d) s = .next t
        ∧ t = { s with docks := t.docks, charge := t.charge,
                       line := { s.line with latchQ := t.line.latchQ, chargeQ := t.line.chargeQ, txn := t.line.txn } }
        ∧ t.dock d = { s.dock d with
            attempts := (s.dock d).attempts + 1, deadline := some (s.afterMs s.cfg.params.latchConfirm) }
        ∧ (∀ y, y ≠ d → t.dock y = s.dock y)
        ∧ (s.linked d = true → (entryOf t.line.latchQ d).map LineEntry.command = some .latchOpen)
        ∧ Asked s t .latch d .latchOpen)
    ∧ ((s.dock d).state = .unlatching → s.cfg.params.latchRetries < (s.dock d).attempts →
      ∃ t, exec (.confirmDeadline d) s = .next t ∧ FaultEntered t d .jam ∧ t.relState d = none ∧ t.cfg = s.cfg
        ∧ ∀ o, OwnedBy s d o → (s.dock d).heldBy = none → s.owedOnlyWhenFull →
          HoldsStay s t d ∧ ClaimFailed s t .nothing d o .jammed)
    ∧ ((s.dock d).state = .pickup → s.staleRuns d = false →
      ∃ t, exec (.pickupDeadline d) s = .next t
        ∧ t = { s with docks := t.docks, charge := t.charge,
                       line := { s.line with latchQ := t.line.latchQ, chargeQ := t.line.chargeQ, txn := t.line.txn } }
        ∧ t.dock d = { s.dock d with
            state := .relock, deadline := some (s.afterMs (1000 * s.cfg.params.relockTime)) }
        ∧ (∀ y, y ≠ d → t.dock y = s.dock y)
        ∧ (s.linked d = true → (entryOf t.line.latchQ d).map LineEntry.command = some .latchClose)
        ∧ Asked s t .latch d .latchClose)

/-- The deadlines that end a relock or a stale wait (R140, R142, R146), of a presentation, of SERVICE and without an owner.
With the latch OPEN the dock is FAULT, JAM_OPEN, and a noted fault is discarded; otherwise it is DOCKED, or FAULT with the
noted cause and its records (R141). A presentation ends NOT_TAKEN with its rollback, and a SERVICE claim has the service undo
(R148). A stale deadline resolves the release as taken: it completes with UNOBSERVED, and with LATE where the wait began in
RELOCK. -/
def Obligations.RelockAndStaleDeadlines : Prop :=
  ∀ (s : State) (d : DockId) (x : Nat), (s.dock d).deadline = some x → x ≤ s.clock.ms →
    (∀ o, (s.dock d).state = .relock → OwnedBy s d o → s.staleRuns d = false → (s.dock d).heldBy = none →
      s.owedOnlyWhenFull →
      let notTaken := fun g => plainResult g .final (some .notTaken) none (some d) ((s.dock d).bike.bind Bike.number)
      ∃ t, exec (if o = none then .unownedRelockDeadline d else .relockDeadline d) s = .next t
        ∧ (t.dock d).owner = none ∧ t.relState d = none ∧ (o ≠ none → (t.chg d).held = false) ∧ t.cfg = s.cfg ∧ HoldsStay s t d
        ∧ ((s.dock d).latch = some .opened → FaultEntered t d .jamOpen ∧ ClaimUndone s t .nothing o notTaken)
        ∧ ((s.dock d).latch ≠ some .opened → s.notedFault d = none →
          (t.dock d).state = .docked ∧ ClaimUndone s t .nothing o notTaken)
        ∧ ∀ f, (s.dock d).latch ≠ some .opened → s.notedFault d = some f →
          FaultEntered t d f.cause ∧ ClaimUndone s t ⟨id, s.faultRecords d f.cause f.contents⟩ o notTaken)
    ∧ (∀ o, s.staleRuns d = true → OwnedBy s d o → o ≠ none → 0 < s.recs.reserved →
      ∃ t, exec (.staleDeadline d) s = .next t ∧ ReleaseCompleted s t d o (s.removalFlags d).1 true ∧ t.cfg = s.cfg)

/-- A window that closes on a LINKED dock at its last allowed bad answer loses the link (R122): the commands of the dock are
dropped (R123), its contract ends (R151), and the hold of a DOCKED dock moves or is lost (R85, R86, R87). A CLAIMED dock goes
back to DOCKED and the attempt fails, LINK_LOST (R136, R143); an UNLATCHING one goes to RELOCK with no owner and no deadline,
and the presentation ends FAILED, LINK_LOST, with its rollback (R144); a SERVICE claim has the service undo in both (R148). A
claim in PICKUP or RELOCK is kept in a stale wait (R145), and a relock with no owner loses its deadline (R142). The report
that links the dock again ends a stale wait: RELOCK, LATCH_CLOSE and a relock deadline; a bike already gone completes with
UNOBSERVED (R145). A DOCKED dock with an ELECTRIC bike then opens a contract, IDLE with offer time now (R124, R151); that its
offer is made in the same event is the model's choice, log entry 14. A relock with no owner has LATCH_CLOSE asked again and a
fresh relock deadline, unless that report confirms the close (R141, R142). -/
def Obligations.LinkLossDuringRelease : Prop :=
  (∀ (s : State) (x : Transaction), WindowEnds s x → (s.link x.dock).state = .linked →
    s.cfg.params.mDown ≤ (s.link x.dock).bad + 1 →
    ∃ t, exec .answerWindowClose s = .next t ∧ (t.link x.dock).state = .lost ∧ (t.chg x.dock).contract = none
      ∧ t.commandsFor x.dock .latch = [] ∧ t.commandsFor x.dock .charge = []
      ∧ ((s.dock x.dock).state = .docked → (t.dock x.dock).state = .docked ∧ HoldMoved s t x.dock ∧ t.pres = s.pres)
      ∧ ((s.dock x.dock).state ≠ .docked → HoldsStay s t x.dock)
      ∧ ((s.dock x.dock).state = .relock → (s.dock x.dock).owner = none →
        t.dock x.dock = { s.dock x.dock with deadline := none } ∧ t.pres = s.pres)
      ∧ ∀ o, OwnedBy s x.dock o → o ≠ none → s.owedOnlyWhenFull →
        ((s.dock x.dock).state = .claimed → (t.dock x.dock).state = .docked ∧ (t.dock x.dock).owner = none
          ∧ x.dock ∉ t.rel.grantQ ∧ t.relState x.dock = none ∧ ClaimFailed s t .nothing x.dock o .linkLost)
        ∧ ((s.dock x.dock).state = .unlatching → (t.dock x.dock).state = .relock ∧ (t.dock x.dock).owner = none
          ∧ (t.dock x.dock).deadline = none ∧ t.relState x.dock = some .fresh
          ∧ ClaimUndone s t .nothing o (fun g => plainResult g .final (some .failed) (some .linkLost) (some x.dock) none))
        ∧ ((s.dock x.dock).state = .pickup ∨ (s.dock x.dock).state = .relock →
          t.dock x.dock = { s.dock x.dock with deadline := some (s.afterMs (1000 * s.cfg.params.staleLimit)) }
          ∧ t.pres = s.pres
          ∧ ∀ q, s.relState x.dock = some q → t.relState x.dock = some { q with
              stale := some (q.stale.getD (if (s.dock x.dock).state = .pickup then .pickup else .relock)), relinked := false }))
  ∧ ∀ (s : State) (x : Transaction) (bytes : List Byte) (r : Report) (o : Option Owner) (q : ReleaseState) (st : StaleStage),
    AnswerArrives s x bytes r → (s.link x.dock).state ≠ .linked → s.cfg.params.mUp ≤ (s.link x.dock).good + 1 →
    OwnedBy s x.dock o → o ≠ none → (s.dock x.dock).state = .pickup ∨ (s.dock x.dock).state = .relock →
    s.relState x.dock = some q → q.stale = some st → q.relinked = false →
    ∃ t, exec (.dockReportReceived bytes) s = .next t ∧ (t.link x.dock).state = .linked
      ∧ (r.latch = .opened → r.contents.code ≠ .short → (s.dock x.dock).steady r.contents →
        (t.dock x.dock).state = .relock ∧ (t.dock x.dock).owner = o
        ∧ (t.dock x.dock).deadline = some (s.afterMs (1000 * s.cfg.params.relockTime))
        ∧ (t.relState x.dock) = some { q with relinked := true } ∧ .latchClose ∈ t.commandsFor x.dock .latch
        ∧ t.pres = s.pres ∧ HoldsStay s t x.dock)
      ∧ ((s.dock x.dock).confirms s.cfg.params r.contents → r.contents.code = .noBike → 0 < s.recs.reserved →
        ReleaseCompleted s t x.dock o (decide (st = .relock)) true)
  ∧ ∀ (s : State) (x : Transaction) (bytes : List Byte) (r : Report), AnswerArrives s x bytes r →
    (s.link x.dock).state ≠ .linked → s.cfg.params.mUp ≤ (s.link x.dock).good + 1 → r.contents.code ≠ .short →
    (s.dock x.dock).steady r.contents → s.staleRuns x.dock = false →
    ∃ t, exec (.dockReportReceived bytes) s = .next t ∧ (t.link x.dock).state = .linked
      ∧ (∀ b, (s.dock x.dock).state = .docked → r.latch = .closed → (s.dock x.dock).bike = some b →
        (s.chg x.dock).contract = none →
        (t.dock x.dock).state = .docked ∧ (t.dock x.dock).bike = some (r.refresh b) ∧ t.pres = s.pres ∧ HoldsStay s t x.dock
        ∧ (b.kind = .standard → (t.chg x.dock).contract = none)
        ∧ (b.kind = .electric → (t.chg x.dock).held = false
          ∧ ((t.chg x.dock).contract = some .idle ∧ (t.chg x.dock).offerTime = some s.clock.ms
            ∨ (t.chg x.dock).contract = some .offered)
          ∧ (r.applied = none → s.lowering x.dock = false →
            (t.chg x.dock).contract = some .offered ∧ .caps ∈ t.commandsFor x.dock .charge)))
      ∧ ((s.dock x.dock).state = .relock → (s.dock x.dock).owner = none → (s.dock x.dock).heldBy = none →
        t.pres = s.pres ∧ HoldsStay s t x.dock
        ∧ (r.latch = .opened ∨ r.contents.code.bikeKind = none →
          (t.dock x.dock).state = .relock ∧ (t.dock x.dock).owner = none
          ∧ (t.dock x.dock).deadline = some (s.afterMs (1000 * s.cfg.params.relockTime))
          ∧ .latchClose ∈ t.commandsFor x.dock .latch ∧ t.relState x.dock = s.relState x.dock)
        ∧ (r.latch = .closed → r.contents.code.bikeKind.isSome = true → s.notedFault x.dock = none →
          (t.dock x.dock).state = .docked ∧ (t.dock x.dock).deadline = none ∧ t.relState x.dock = none)
        ∧ ∀ f, r.latch = .closed → r.contents.code.bikeKind.isSome = true → s.notedFault x.dock = some f →
          FaultEntered t x.dock f.cause ∧ t.relState x.dock = none)

/-! ## Dock line and charging (chapters 7 and 9) -/

/-- COMMAND_FRAME_SENT opens the answer window. Bytes of an answer that begins in time are kept until the 14th, which ends the
transaction (R113, R114), and the window's close has then no effect; that several bytes come in one command, with the
millisecond of the last, is log entry 15. A first byte after the window, a later byte after more than W ms, the close of a
window without an answer and a byte timeout end it bad. Every judgement counts toward the link of the dock addressed as R122
states, leaves the links of the others, and keeps time, parameters, keys, lists, the admission and the outstanding requests
(R116). -/
def Obligations.TransactionsJudged : Prop :=
  ∀ (s : State) (x : Transaction), s.line.txn = some x →
    (x.phase = .sending → exec .commandFrameSent s = .next
      { s with line := { s.line with txn := some { x with phase := .window s.clock.ms } } })
    ∧ (∀ (come bytes : List Byte) (o : Nat), bytes ≠ [] → (x.phase = .window o ∧ come = [] ∨ x.phase = .answering come o) →
      (s.clock.ms ≤ o + x.window → (come ++ bytes).length < 14 → exec (.dockReportReceived bytes) s = .next
        { s with line := { s.line with txn := some { x with phase := .answering (come ++ bytes) s.clock.ms } } })
      ∧ (s.clock.ms ≤ o + x.window → 14 ≤ (come ++ bytes).length → ∃ t, exec (.dockReportReceived bytes) s = .next t
        ∧ Judged s t x.dock (goodAnswer? x.dock ((come ++ bytes).take 14)).isSome)
      ∧ (o + x.window < s.clock.ms → ∃ t, exec (.dockReportReceived bytes) s = .next t ∧ Judged s t x.dock false))
    ∧ (∀ o, x.phase = .window o → o + x.window ≤ s.clock.ms →
      ∃ t, exec .answerWindowClose s = .next t ∧ Judged s t x.dock false)
    ∧ (∀ come l, x.phase = .answering come l → exec .answerWindowClose s = .next s
      ∧ (l + x.window ≤ s.clock.ms → ∃ t, exec (.answerByteTimeout l) s = .next t ∧ Judged s t x.dock false)
      ∧ ∀ n, n ≠ l → exec (.answerByteTimeout n) s = .next s)

/-- A bad transaction that does not lose its link settles the command in flight, and the arbiter makes one grant (R116); that
an offer whose time has come is made between the two is the model's choice, log entry 14. The command goes back to its place
with its resend wait set, unless it was withdrawn (R118, R119). A newer one that waits takes its place with the resend wait,
also where a withdrawal was held against it: log entry 13. A CHARGE_CAPS that gives way to another command takes its OFFERED
contract to IDLE with offer time now (R157; for a newer CHARGE_CAPS, log entry 47); a completed one starts the answer
deadline. A command asked for joins the end of its queue or takes the place of the dock's queued one, which keeps place and
resend wait, and a dock that is not LINKED has none queued (R117); a withdrawal removes the queued entry and is held against a
command in flight (R118). The grant takes the oldest free latch command, the oldest free charge command, a POLL from the poll
pointer upward, or the oldest command (R120, R121). That it clears the resend wait of the candidates passed over, and keeps
the waits of those behind the one granted, is log entry 13. -/
def Obligations.CommandsSettledAndGranted : Prop :=
  (∀ (s : State) (x : Transaction), WindowEnds s x →
    (s.link x.dock).state ≠ .linked ∨ (s.link x.dock).bad + 1 < s.cfg.params.mDown →
    exec .answerWindowClose s = .next ((((({ s with line := { s.line with txn := none } }).setLink x.dock
      ((s.link x.dock).count s.cfg.params false)).settleCommand x false).offerIfDue x.dock).lineGrant))
  ∧ (∀ (s : State) (x : Transaction),
    (x.command.cls = none → ∀ good, s.settleCommand x good = s)
    ∧ (x.command ≠ .caps → s.settleCommand x true = s)
    ∧ (x.command = .caps → (s.chg x.dock).contract = some .offered → entryOf s.line.chargeQ x.dock = none →
      s.settleCommand x true = s.setChg x.dock { s.chg x.dock with
        capsDelivered := true, answerDeadline := some (s.afterMs s.cfg.params.chargeAnswer) })
    ∧ ∀ k, x.command.cls = some k →
      (entryOf (s.line.queue k) x.dock = none → x.withdrawn = true → s.settleCommand x false = s)
      ∧ (entryOf (s.line.queue k) x.dock = none → x.withdrawn = false → s.settleCommand x false = s.setQueue k
          ((s.line.queue k).take x.place ++ ⟨x.dock, x.command, true⟩ :: (s.line.queue k).drop x.place))
      ∧ (∀ newer, entryOf (s.line.queue k) x.dock = some newer → ∃ t, s.settleCommand x false = t
        ∧ t.line.queue k = (withoutDock (s.line.queue k) x.dock).take x.place
            ++ { newer with resendWait := true } :: (withoutDock (s.line.queue k) x.dock).drop x.place
        ∧ (∀ y, y ≠ x.dock → t.chg y = s.chg y)
        ∧ (x.command = .caps → newer.command ≠ .caps → (s.chg x.dock).contract = some .offered →
          (t.chg x.dock).contract = some .idle ∧ (t.chg x.dock).offerTime = some s.clock.ms
            ∧ (t.chg x.dock).answerDeadline = none ∧ (t.chg x.dock).capsDelivered = false)
        ∧ (x.command ≠ .caps ∨ newer.command = .caps ∨ (s.chg x.dock).contract ≠ some .offered →
          t.chg x.dock = s.chg x.dock)))
  ∧ (∀ (s : State) (d : DockId) (k : CommandClass) (c : LineCommand), c.cls = some k → ∃ t, s.ask d c = t
    ∧ Asked s t k d c ∧ t = { s with line := s.line.setQueue k (t.line.queue k), charge := t.charge }
    ∧ (∀ y, y ≠ d → t.chg y = s.chg y)
    ∧ ((s.chg d).contract ≠ some .offered → t.chg d = s.chg d)
    ∧ (∀ e, s.linked d = true → entryOf (s.line.queue k) d = some e → e.command = .caps → (s.chg d).contract = some .offered →
      (t.chg d).contract = some .idle ∧ (t.chg d).offerTime = some s.clock.ms))
  ∧ (∀ (s : State) (d : DockId) (k : CommandClass), ∃ t, s.withdraw d k = t
    ∧ t.line.queue k = (s.line.queue k).filter (fun e => decide (e.dock ≠ d))
    ∧ t = { s with line := { s.line.setQueue k (t.line.queue k) with txn := t.line.txn } }
    ∧ (∀ x, s.line.txn = some x → x.dock = d → x.command.cls = some k →
      ∃ n, t.line.txn = some { x with place := n, withdrawn := true } ∧ (entryOf (s.line.queue k) d = none → n = x.place))
    ∧ (∀ x, s.line.txn = some x → x.dock ≠ d ∨ x.command.cls ≠ some k →
      ∃ n, t.line.txn = some { x with place := n } ∧ (entryOf (s.line.queue k) d = none → n = x.place))
    ∧ (s.line.txn = none → t.line.txn = none))
  ∧ ∀ (s : State),
    let begun : DockId → LineCommand → Nat → Option Transaction := fun d c n => some
      { dock := d, command := c, place := n, withdrawn := false, frame := commandFrame s.cfg.params d c (s.lamp d),
        window := s.cfg.params.answerWindow, phase := .sending }
    let clear : LineEntry → LineEntry := fun e => { e with resendWait := false }
    let waits := fun (q : List LineEntry) => ∀ e ∈ q, e.resendWait = true
    let offset := fun (d : DockId) => if s.line.ptr.val ≤ d.val then d.val else d.val + 64
    let polled := fun (d : DockId) => d.val < s.cfg.params.dockCount ∧ entryOf s.line.latchQ d = none
      ∧ entryOf s.line.chargeQ d = none
    (∀ before e after, s.line.latchQ = before ++ e :: after → waits before → e.resendWait = false →
      s.lineGrant = { s with line := { s.line with latchQ := before.map clear ++ after,
                                                   txn := begun e.dock e.command before.length } })
    ∧ (∀ before e after, waits s.line.latchQ → s.line.chargeQ = before ++ e :: after → waits before → e.resendWait = false →
      s.lineGrant = { s with line := { s.line with
        latchQ := s.line.latchQ.map clear, chargeQ := before.map clear ++ after,
        txn := begun e.dock e.command before.length } })
    ∧ (∀ d, waits s.line.latchQ → waits s.line.chargeQ → polled d → (∀ y, polled y → offset d ≤ offset y) →
      s.lineGrant = { s with line := { s.line with
        latchQ := s.line.latchQ.map clear, chargeQ := s.line.chargeQ.map clear, txn := begun d .poll 0,
        ptr := s.dockAfter d } } ∧ (s.dockAfter d).val = if d.val + 1 < min s.cfg.params.dockCount 64 then d.val + 1 else 0)
    ∧ ((∀ d, ¬ polled d) → waits s.line.latchQ → waits s.line.chargeQ →
      (∀ e rest, s.line.latchQ = e :: rest → s.lineGrant = { s with line := { s.line with
        latchQ := rest.map clear, chargeQ := s.line.chargeQ.map clear, txn := begun e.dock e.command 0 } })
      ∧ (∀ e rest, s.line.latchQ = [] → s.line.chargeQ = e :: rest → s.lineGrant = { s with line := { s.line with
        chargeQ := rest.map clear, txn := begun e.dock e.command 0 } }))

/-- A free slot with H below P_latch asks for the shortfall to be covered (R131, R161), in a LATCH_GRANT that grants nothing
(log entry 4): ACTIVE contracts on LINKED docks that count more than level 0 are trimmed in order, highest counted allocation,
higher state of charge, lower dock number, until the pending reduction covers the shortfall and no further; that it rises at
each trim by the counted allocation less level 0 is R161 taken literally, log entry 23. The grant pass (R155), which
latch-held bars, takes the TRIMMED contracts on LINKED docks and then the WAITING ones, each in ascending state of charge and
dock number, grants each by the accept rule over the headroom that is left, and stops at the first for which the rule does not
hold. -/
def Obligations.BudgetShared : Prop :=
  (∀ (s : State), s.rel.grantQ ≠ [] → s.rel.pulses < s.cfg.params.lSlots → s.headroom < s.cfg.params.pLatch →
    let may := fun d : DockId => d.val < s.cfg.params.dockCount ∧ (s.chg d).contract = some .active ∧ s.linked d = true
      ∧ s.cfg.params.level0 < (s.chg d).counted
    let sooner := fun a b : DockId => (s.chg b).counted < (s.chg a).counted ∨ ((s.chg a).counted = (s.chg b).counted
      ∧ (s.socOf b < s.socOf a ∨ (s.socOf a = s.socOf b ∧ a.val < b.val)))
    let brings := fun ds : List DockId => ((s.pendingReduction + (ds.map (fun d => (s.chg d).counted - s.cfg.params.level0)).sum
      : Nat) : Int)
    ∃ trimmed rest t, exec .latchGrant s = .next t ∧ (∀ d, d ∈ trimmed ++ rest ↔ may d)
      ∧ (trimmed ++ rest).Pairwise sooner
      ∧ (rest = [] ∨ (s.cfg.params.pLatch : Int) - s.headroom ≤ brings trimmed)
      ∧ (∀ before d, trimmed = before ++ [d] → brings before < (s.cfg.params.pLatch : Int) - s.headroom)
      ∧ t = { s with charge := t.charge, line := { s.line with chargeQ := t.line.chargeQ } }
      ∧ (∀ d ∈ trimmed, t.chg d = { s.chg d with
          contract := some .trimmed, requested := (s.chg d).granted, granted := some 0 }
        ∧ (entryOf t.line.chargeQ d).map LineEntry.command = some (.trim 0))
      ∧ ∀ d, d ∉ trimmed → t.chg d = s.chg d)
  ∧ ∀ (s : State),
    (s.latchHeld = true ↔ s.rel.grantQ ≠ [] ∧ s.rel.pulses < s.cfg.params.lSlots)
    ∧ (s.latchHeld = true → s.grantPass = s)
    ∧ (s.latchHeld = false →
      let takes := fun d : DockId => d.val < s.cfg.params.dockCount
        ∧ ((s.chg d).contract = some .trimmed ∧ s.linked d = true ∨ (s.chg d).contract = some .waiting)
      let sooner := fun a b : DockId => (s.chg a).contract = some .trimmed ∧ (s.chg b).contract = some .waiting
        ∨ (s.chg a).contract = (s.chg b).contract
          ∧ (s.socOf a < s.socOf b ∨ (s.socOf a = s.socOf b ∧ a.val < b.val))
      ∃ granted rest t, s.grantPass = t ∧ (∀ d, d ∈ granted ++ rest ↔ takes d) ∧ (granted ++ rest).Pairwise sooner
        ∧ t = { s with charge := t.charge, line := { s.line with chargeQ := t.line.chargeQ } }
        ∧ (∀ d ∈ granted, ∀ l, (s.chg d).requested = some l →
          t.chg d = { s.chg d with contract := some .active, granted := some l, requested := none, offerTime := none,
                                   capsDelivered := false, answerDeadline := none,
                                   counted := max (s.chg d).counted (s.cfg.params.levelWatts l) }
          ∧ (s.linked d = true → (entryOf t.line.chargeQ d).map LineEntry.command =
              some (if (s.chg d).contract = some .trimmed then .restore l else .accept l)))
        ∧ (∀ d, d ∉ granted ∨ (s.chg d).requested = none → t.chg d = s.chg d)
        ∧ (∀ d after, rest = d :: after → ∃ l, (s.chg d).requested = some l
          ∧ t.headroom - s.cfg.params.pLatch < (s.cfg.params.levelWatts l : Int) - (s.chg d).counted)
        ∧ ((∃ d ∈ granted, ∃ l, (s.chg d).requested = some l ∧ (s.chg d).counted < s.cfg.params.levelWatts l) →
          (s.cfg.params.pLatch : Int) ≤ t.headroom))

/-- A claim tells the Charge Controller (R163), stated for Service Release: an ACTIVE or TRIMMED contract goes to STOPPING
with CHARGE_STOP asked, a WAITING or OFFERED one to IDLE without an offer time, its CHARGE_CAPS withdrawn, with the withdrawal
held against one in flight (R118). CHARGE_STOP joins the charge queue at its end or in place of the dock's queued command
(R117). With nothing counted the dock is ready and joins the latch grant queue (R130); with a counted allocation it waits. A
counted allocation that falls to 0 on a claimed dock reports ALLOCATION_CLEAR, and one that rises from 0 takes the dock out of
the queue again. -/
def Obligations.ClaimStopsCharging : Prop :=
  (∀ (s : State) (p : PortId) (n : Byte) (d : DockId), Executes s p 0x55 .operator [n] → s.dockInUse? n.toNat = some d →
    (s.dock d).state = .docked → s.linked d = true → s.slotTest = true → ∀ c, c = s.chg d →
    ∃ t, exec (.serviceRelease p) s = .next t ∧ (t.chg d).held = true ∧ (t.chg d).counted = c.counted
      ∧ (c.contract = some .active ∨ c.contract = some .trimmed →
        (t.chg d).contract = some .stopping ∧ (t.chg d).granted = none ∧ (t.chg d).requested = none
          ∧ (t.chg d).stopOutstanding = true ∧ (entryOf t.line.chargeQ d).map LineEntry.command = some .stop)
      ∧ (c.contract = some .idle ∨ c.contract = some .offered ∨ c.contract = some .waiting →
        (t.chg d).contract = some .idle ∧ (t.chg d).offerTime = none ∧ (t.chg d).requested = none
          ∧ (t.chg d).answerDeadline = none)
      ∧ (c.contract = some .offered → (entryOf s.line.chargeQ d).map LineEntry.command = some .caps → c.counted = 0 →
        entryOf t.line.chargeQ d = none)
      ∧ (∀ x, c.contract = some .offered → s.line.txn = some x → x.dock = d → x.command = .caps →
        ∃ m, t.line.txn = some { x with place := m, withdrawn := true } ∧ (entryOf s.line.chargeQ d = none → m = x.place))
      ∧ (0 < c.counted → c.contract ≠ some .offered →
        c.contract = some .active ∨ c.contract = some .trimmed ∨ c.stopOutstanding = false → Asked s t .charge d .stop)
      ∧ (0 < c.counted → c.stopOutstanding = false → (t.chg d).stopOutstanding = true
          ∧ (entryOf t.line.chargeQ d).map LineEntry.command = some .stop)
      ∧ (c.counted = 0 → t.rel.grantQ = s.rel.grantQ ++ [d] ∧ (t.relState d).map ReleaseState.ready = some true)
      ∧ (0 < c.counted → t.rel.grantQ = s.rel.grantQ ∧ t.relState d = some .fresh)
      ∧ ∀ y, y ≠ d → t.relState y = s.relState y)
  ∧ ∀ (s : State) (d : DockId) (n : Nat) (q : ReleaseState), (s.dock d).state = .claimed → (s.chg d).held = true →
    s.relState d = some q →
    (s.chg d).contract = none ∨ (s.chg d).contract = some .idle ∨ (s.chg d).contract = some .stopping
      ∨ (s.chg d).contract = some .full →
    (0 < (s.chg d).counted → q.ready = false → ∃ t, s.setCounted d 0 = t ∧ (t.chg d).counted = 0
      ∧ t.rel.grantQ = s.rel.grantQ ++ [d] ∧ t.relState d = some { q with ready := true })
    ∧ ((s.chg d).counted = 0 → 0 < n → q.ready = true → ∃ t, s.setCounted d n = t ∧ (t.chg d).counted = n
      ∧ t.rel.grantQ = s.rel.grantQ.filter (fun e => decide (e ≠ d)) ∧ t.relState d = some { q with ready := false })

/-- Offers, answers and messages of a contract. An offer whose time has come, with no stop or trim queued or in flight, asks
CHARGE_CAPS (R156); an answer deadline reached takes the contract to IDLE an offer interval ahead (R157). In a report of a
DOCKED dock, a REQUEST in OFFERED that never fits is rejected, one that may be granted makes it ACTIVE, any other WAITING
(R155, R157); a new REQUEST in WAITING and in TRIMMED replaces the level (R158, R162); in ACTIVE a lower level is accepted and
a higher one where it may be granted (R159); FULL makes the contract FULL (R157, R159, R160, R162). A good report raises the
counted allocation to the applied wattage, and a settled one lowers it to the greater of granted and applied (R153). Applied
output asks CHARGE_STOP of a STOPPING contract and of a stray one, and CHARGE_TRIM of a TRIMMED one (R160, R162, R165). A
STOPPING contract whose output is gone, and a FULL one below 95, go to IDLE (R160); where the offer is due it is made in the
same event: the model's choice, log entry 14. -/
def Obligations.ContractsServed : Prop :=
  (∀ (s : State) (d : DockId) (x : Nat), x ≤ s.clock.ms →
    ((s.chg d).contract = some .idle → (s.chg d).offerTime = some x → s.lowering d = false →
      ∃ t, exec (.chargeOffer d) s = .next t
        ∧ t = { s with charge := t.charge, line := { s.line with chargeQ := t.line.chargeQ } }
        ∧ t.chg d = { s.chg d with
            contract := some .offered, offerTime := none, capsDelivered := false, answerDeadline := none }
        ∧ (∀ y, y ≠ d → t.chg y = s.chg y)
        ∧ (s.linked d = true → (entryOf t.line.chargeQ d).map LineEntry.command = some .caps))
    ∧ ((s.chg d).contract = some .offered → (s.chg d).answerDeadline = some x →
      exec (.chargeAnswerDeadline d) s = .next (s.setChg d { s.chg d with
        contract := some .idle, granted := none, requested := none, capsDelivered := false, answerDeadline := none,
        offerTime := some (s.afterMs (1000 * s.cfg.params.offerInterval)) })))
  ∧ ∀ (s : State) (x : Transaction) (bytes : List Byte) (r : Report), ReportArrives s x bytes r → ∀ d, d = x.dock →
    x.command = .poll → s.chargeBusy d = false → (s.dock d).state = .docked → r.latch = .closed → (s.dock d).steady r.contents →
    r.contents.code ≠ .short → (s.chg d).held = false → s.clock.ms < Config.maxMs → 0 < s.cfg.params.offerInterval →
    let watts := s.cfg.params.levelWatts
    let never := fun l => s.cfg.params.bTotal < watts l + s.cfg.params.pLatch
    let admits := fun l => (watts l : Int) - (s.chg d).counted ≤ s.headroom - s.cfg.params.pLatch
      ∧ (∀ y : DockId, y.val < s.cfg.params.dockCount →
          (s.chg y).contract ≠ some .waiting ∧ (s.chg y).contract ≠ some .trimmed)
      ∧ ¬ (s.rel.grantQ ≠ [] ∧ s.rel.pulses < s.cfg.params.lSlots)
    let rejected := fun t : State => (t.chg d).contract = some .idle ∧ (t.chg d).requested = none
      ∧ (t.chg d).offerTime = some (s.afterMs (1000 * s.cfg.params.offerInterval)) ∧ .reject ∈ t.commandsFor d .charge
    ∃ t, exec (.dockReportReceived bytes) s = .next t ∧ (t.chg d).lastMessage = some r.message
      ∧ ((s.chg d).counted = max (s.cfg.params.watts (s.chg d).granted) (s.cfg.params.watts r.applied) →
          ∀ y, y ≠ d → t.chg y = s.chg y)
      ∧ (∀ l, r.message = .request l → (s.chg d).contract = some .offered → (s.chg d).capsDelivered = true →
          r.applied = none → (s.chg d).counted = 0 → (s.chg d).granted = none →
        (never l → rejected t)
        ∧ (¬ never l → admits l → (t.chg d).contract = some .active ∧ (t.chg d).granted = some l
          ∧ (t.chg d).counted = watts l ∧ .accept l ∈ t.commandsFor d .charge)
        ∧ (¬ never l → ¬ admits l → (t.chg d).contract = some .waiting ∧ (t.chg d).requested = some l
          ∧ (t.chg d).counted = 0 ∧ .wait ∈ t.commandsFor d .charge))
      ∧ (∀ l, r.message = .request l → (s.chg d).lastMessage ≠ some r.message → (s.chg d).contract = some .waiting →
          r.applied = none → (s.chg d).counted = 0 → (s.chg d).granted = none →
        (never l → rejected t) ∧ (¬ never l → (t.chg d).contract = some .waiting ∧ (t.chg d).requested = some l))
      ∧ (∀ l g, r.message = .request l → (s.chg d).lastMessage ≠ some r.message → (s.chg d).contract = some .active →
          (s.chg d).granted = some g → r.applied = some g → (s.chg d).counted = watts g →
        (t.chg d).contract = some .active
        ∧ (l < g → (t.chg d).granted = some l ∧ (t.chg d).counted = watts g ∧ .accept l ∈ t.commandsFor d .charge)
        ∧ (g < l → admits l → (t.chg d).granted = some l ∧ (t.chg d).counted = max (watts g) (watts l)
          ∧ .accept l ∈ t.commandsFor d .charge)
        ∧ (g = l ∨ g < l ∧ ¬ admits l → (t.chg d).granted = some g ∧ (t.chg d).counted = watts g
          ∧ entryOf t.line.chargeQ d = none))
      ∧ (r.message = .full → (s.chg d).lastMessage ≠ some r.message → (s.dock d).bike.map Bike.kind = some .electric →
          95 ≤ r.soc.getD 0 →
        ((s.chg d).contract = some .offered ∧ (s.chg d).capsDelivered = true ∨ (s.chg d).contract = some .waiting →
          r.applied = none → (s.chg d).counted = 0 → (s.chg d).granted = none →
          (t.chg d).contract = some .full ∧ (t.chg d).requested = none)
        ∧ (∀ g, (s.chg d).contract = some .active → (s.chg d).granted = some g → r.applied = some g →
          (s.chg d).counted = watts g →
          (t.chg d).contract = some .full ∧ (t.chg d).granted = none ∧ (t.chg d).stopOutstanding = true
          ∧ .stop ∈ t.commandsFor d .charge)
        ∧ ((s.chg d).contract = some .trimmed → (s.chg d).counted = max (s.cfg.params.watts (s.chg d).granted)
            (s.cfg.params.watts r.applied) →
          (t.chg d).contract = some .full ∧ (t.chg d).granted = none ∧ (t.chg d).requested = none
          ∧ (t.chg d).stopOutstanding = true ∧ .stop ∈ t.commandsFor d .charge))
      ∧ (∀ l, r.message = .request l → (s.chg d).lastMessage ≠ some r.message → (s.chg d).contract = some .trimmed →
          (s.chg d).granted = some 0 → r.applied = none ∨ r.applied = some 0 → (s.chg d).counted = s.cfg.params.level0 →
        (never l → rejected t ∧ (t.chg d).granted = none)
        ∧ (¬ never l → (t.chg d).contract = some .trimmed ∧ (t.chg d).granted = some 0 ∧ (t.chg d).requested = some l))
      ∧ (∀ a, r.applied = some a → 0 < a → r.message = .none ∨ (s.chg d).lastMessage = some r.message →
          (s.chg d).contract = some .trimmed → (s.chg d).counted = max (s.cfg.params.watts (s.chg d).granted) (watts a) →
        (t.chg d).contract = some .trimmed ∧ (t.chg d).requested = (s.chg d).requested
          ∧ .trim 0 ∈ t.commandsFor d .charge)
  ∧ ∀ (s : State) (x : Transaction) (bytes : List Byte) (r : Report), AnswerArrives s x bytes r → ∀ d, d = x.dock →
    ∀ c, c = s.chg d →
    let settled := x.command.cls ≠ some .charge ∧ entryOf s.line.chargeQ d = none
    let calm := s.linked d = true ∧ ((s.dock d).state = .docked ∨ (s.dock d).state = .claimed) ∧ r.latch = .closed
      ∧ r.contents.code ≠ .short ∧ (s.dock d).steady r.contents ∧ (r.message = .none ∨ c.lastMessage = some r.message)
    let offered := fun t : State => (t.chg d).contract = some .offered ∧ (t.chg d).offerTime = none ∧ .caps ∈ t.commandsFor d .charge
    ∀ n, settled ∧ n = max (s.cfg.params.watts c.granted) (s.cfg.params.watts r.applied)
        ∨ ¬ settled ∧ n = max c.counted (s.cfg.params.watts r.applied) →
    ∃ t, exec (.dockReportReceived bytes) s = .next t ∧ n ≤ (t.chg d).counted
      ∧ (c.contract = none ∨ c.contract = some .idle ∨ c.contract = some .stopping ∨ c.contract = some .full →
        (t.chg d).counted = n)
      ∧ (c.contract = none ∨ c.contract = some .idle ∨ c.contract = some .offered ∨ c.contract = some .full
          ∨ c.contract = some .waiting ∧ n = c.counted ∧ (s.dock d).state = .docked →
        s.linked d = true → r.message = .none → 0 < n → r.applied ≠ none → settled ∨ c.stopOutstanding = false →
        (t.chg d).stopOutstanding = true ∧ .stop ∈ t.commandsFor d .charge)
      ∧ (calm → settled → c.contract = some .stopping →
        (r.applied ≠ none → (t.chg d).contract = some .stopping ∧ (t.chg d).stopOutstanding = true
          ∧ .stop ∈ t.commandsFor d .charge)
        ∧ (r.applied = none → (c.held = true → (t.chg d).contract = some .idle ∧ (t.chg d).offerTime = none)
          ∧ (c.held = false → offered t)))
      ∧ (calm → c.contract = some .full → (s.dock d).bike.map Bike.kind = some .electric →
        (95 ≤ r.soc.getD 0 → (t.chg d).contract = some .full)
        ∧ (r.soc.getD 0 < 95 → (c.held = true → (t.chg d).contract = some .idle ∧ (t.chg d).offerTime = none)
          ∧ (c.held = false → settled → r.applied = none → offered t)
          ∧ (c.held = false → settled → r.applied ≠ none → 0 < n →
            (t.chg d).contract = some .idle ∧ (t.chg d).offerTime = some s.clock.ms)))

/-! ## Records (chapter 10) -/

/-- A RETURN or ANOMALY handed over is written, held as owed or counted lost (R173), and a record written takes the next
sequence, raises RECORDS_WAITING and, as the 96th, RECORDS_NEAR_FULL (R170, R177). A return hands over its RETURN and applies
the bounce rule (R94, R149). The owed pass writes the owed records in ascending dock number while a slot is free (R174).
Acknowledge Records removes the records from the oldest through the one named, and no other, runs the owed pass and answers
the occupied count after it, or answers NOT_FOUND (R176). -/
def Obligations.RecordsAcknowledged : Prop :=
  (∀ (s : State) (p : PortId) (payload : List Byte), Executes s p 0x61 .operator payload → payload.length = 2 →
    ((∀ q ∈ s.recs.records, q.seq ≠ beVal payload) → exec (.acknowledgeRecords p) s = .next (s.respond p
      ⟨.notFound, optSeq (s.recs.records.head?.map QueuedRecord.seq)⟩))
    ∧ ∀ before q after, s.recs.records = before ++ q :: after → (∀ x ∈ before, x.seq ≠ beVal payload) →
      q.seq = beVal payload →
      ((∀ d, (s.dock d).owed = none) → exec (.acknowledgeRecords p) s = .next
        (({ s with recs := { s.recs with records := after } }).respond p
          ⟨.done, be16 (before.length + 1) ++ be16 after.length⟩))
      ∧ ∃ u, u = ({ s with recs := { s.recs with records := after } }).owedPass
        ∧ exec (.acknowledgeRecords p) s = .next
          (u.respond p ⟨.done, be16 (before.length + 1) ++ be16 u.recs.records.length⟩))
  ∧ (∀ (s : State) (r : TripRecord), HandedOver s (s.handOver r) r
    ∧ (0 < s.freeSlots → (s.handOver r).pendingFor .operator .recordsWaiting
      ∧ (s.recs.records.length = 95 → (s.handOver r).pendingFor .operator .recordsNearFull)))
  ∧ (∀ (s : State) (d : DockId) (n : Option Nat) (found : Bool), Returned s (s.recordReturn d n found) d n found)
  ∧ ∀ (s : State), s.recs.nextSeq < 65536 →
    let owing := allDocks.filter (fun d => (s.dock d).owed.isSome)
    s.owedPass.recs = { s.recs with
        records := s.recs.records ++ ((owing.take s.freeSlots).filterMap (fun d => (s.dock d).owed)).zipIdx.map
          (fun x => ⟨(s.recs.nextSeq + x.2) % 65536, x.1⟩),
        nextSeq := (s.recs.nextSeq + min s.freeSlots owing.length) % 65536 }
    ∧ (∀ d ∈ owing.take s.freeSlots, s.owedPass.dock d = { s.dock d with owed := none })
    ∧ ∀ d, d ∉ owing.take s.freeSlots → s.owedPass.dock d = s.dock d

/-! ## Configuration and resets (11.6 to 11.9) -/

/-- Set Parameter (R190): the port roles and the dock count answer STATE, an identity that names no parameter OUT_OF_RANGE,
and a value is clamped to its range and put in force. C_cap lowers the credit to its cap (R39). The sync lifetime is compared
with the sync age: CURRENT and LAPSED follow the comparison, and a sync that lapses raises CLOCK_UNSYNCED (R30). B_total,
P_latch, L_slots and the levels answer STATE where R131 and R166 refuse them. A change of B_total or P_latch rejects the
WAITING and TRIMMED contracts it can never admit; the head is then tested, and the grant pass follows a raise of B_total, a
lowering of P_latch and an end of latch-held (R154, R166; log entries 48 and 49). A change of a level puts the OFFERED and
WAITING contracts in IDLE with offer time now (R166); that their new offer is made in the same event, so that they end OFFERED
with CHARGE_CAPS asked, is the model's choice, log entry 14. The ascending dock order of both is log entry 51. -/
def Obligations.ParameterSet : Prop :=
  ∀ (s : State) (p : PortId) (payload : List Byte), Executes s p 0x70 .operator payload → payload.length = 5 →
    let id := (byteAt payload 0).toNat
    (id = 1 ∨ id = 2 → exec (.setParameter p) s = .next (s.respond p ⟨.state, []⟩))
    ∧ (id = 0 ∨ 31 < id → exec (.setParameter p) s = .next (s.respond p ⟨.outOfRange, []⟩))
    ∧ (∀ lo hi, (3 ≤ id ∧ id ≤ 22) ∨ id = 30 ∨ id = 31 → paramRange id = some (lo, hi) →
      ∃ t, exec (.setParameter p) s = .next t
        ∧ t = { s with portA := t.portA, portB := t.portB, clock := t.clock,
                       cfg := { s.cfg with params := s.cfg.params.set id (max lo (min (fieldVal payload 1 4) hi)) } }
        ∧ t.cfg.params.get id = some (max lo (min (fieldVal payload 1 4) hi))
        ∧ t.clock = { s.clock with credit := t.clock.credit, sync := t.clock.sync }
        ∧ (id ≠ 20 → t.clock.sync = s.clock.sync)
        ∧ (id = 20 → t.clock.sync = (if s.clock.sync = .never then .never
            else if t.cfg.params.syncLifetime < s.uptime - s.clock.lastSync then .lapsed else .current)
          ∧ (s.clock.sync = .current → t.clock.sync = .lapsed → t.pendingFor .operator .clockUnsynced))
        ∧ t.clock.credit = (if id = 21 then min s.clock.credit (16 * t.cfg.params.cCap) else s.clock.credit)
        ∧ Answered s t p ⟨.done, be32 (max lo (min (fieldVal payload 1 4) hi))⟩)
    ∧ (∀ lo hi, 23 ≤ id → id ≤ 29 → paramRange id = some (lo, hi) →
      let v := s.cfg.params.clampFor id (fieldVal payload 1 4) (lo, hi)
      let refused := (id = 23 ∧ v < s.countedSum + s.cfg.params.pLatch * s.rel.pulses)
        ∨ (id = 24 ∧ s.cfg.params.bTotal < s.countedSum + v * s.rel.pulses) ∨ (id = 25 ∧ v < s.rel.pulses)
        ∨ (26 ≤ id ∧ ∃ d : DockId, d.val < s.cfg.params.dockCount ∧ (0 < (s.chg d).counted ∨ (s.chg d).contract = some .active
            ∨ (s.chg d).contract = some .trimmed ∨ (s.chg d).contract = some .stopping))
      (refused → exec (.setParameter p) s = .next (s.respond p ⟨.state, []⟩))
      ∧ (¬ refused → ∃ t, exec (.setParameter p) s = .next t
        ∧ t = { s with portA := t.portA, portB := t.portB, charge := t.charge,
                       line := { s.line with latchQ := t.line.latchQ, chargeQ := t.line.chargeQ, txn := t.line.txn },
                       cfg := { s.cfg with params := s.cfg.params.set id v } }
        ∧ t.cfg.params.get id = some v ∧ Answered s t p ⟨.done, be32 v⟩
        ∧ (id ≤ 24 → ∀ d l, d.val < s.cfg.params.dockCount → (s.chg d).requested = some l →
          (s.chg d).contract = some .waiting ∨ (s.chg d).contract = some .trimmed →
          t.cfg.params.bTotal < t.cfg.params.levelWatts l + t.cfg.params.pLatch →
          (t.chg d).contract = some .idle ∧ (t.chg d).requested = none ∧ (t.chg d).granted = none
          ∧ (t.chg d).offerTime = some (s.afterMs (1000 * s.cfg.params.offerInterval)))
        ∧ (id ≤ 25 → ∃ u, u = (if id = 25 then s.setParams (s.cfg.params.set id v)
              else s.docksInUse.foldl State.rejectIfNever (s.setParams (s.cfg.params.set id v)))
          ∧ (s.cfg.params.bTotal < t.cfg.params.bTotal ∨ t.cfg.params.pLatch < s.cfg.params.pLatch
              ∨ (s.latchHeld = true ∧ u.latchHeld = false) → t = u.testHead.grantPass.respond p ⟨.done, be32 v⟩)
          ∧ (¬ (s.cfg.params.bTotal < t.cfg.params.bTotal ∨ t.cfg.params.pLatch < s.cfg.params.pLatch
              ∨ (s.latchHeld = true ∧ u.latchHeld = false)) → t = u.testHead.respond p ⟨.done, be32 v⟩))
        ∧ (26 ≤ id → ∀ d : DockId, d.val < s.cfg.params.dockCount →
          (s.chg d).contract = some .offered ∨ (s.chg d).contract = some .waiting →
          (s.lowering d = false → (t.chg d).contract = some .offered ∧ (t.chg d).capsDelivered = false
            ∧ (t.chg d).answerDeadline = none ∧ (t.chg d).requested = none
            ∧ (s.linked d = true → (entryOf t.line.chargeQ d).map LineEntry.command = some .caps))
          ∧ (s.lowering d = true → (t.chg d).contract = some .idle ∧ (t.chg d).offerTime = some s.clock.ms))))

/-- Store Configuration takes the values as they stand and withholds its response (R192). At the end of its check, bytes read
back that are those written, with their CRC-16, make the stored configuration valid and are what the memory then holds; any
others answer VERIFY_FAILED and raise CONFIG_INVALID on both ports (R192, R199). -/
def Obligations.ConfigurationStored : Prop :=
  ∀ s : State,
    (∀ (p : PortId) (n r : Byte), Executes s p 0x72 .operator [n, r] →
      (64 < n.toNat ∨ 2 < r.toNat → exec (.storeConfiguration p) s = .next (s.respond p ⟨.outOfRange, []⟩))
      ∧ (n.toNat ≤ 64 → r.toNat ≤ 2 → ∃ j : StoreJob,
          exec (.storeConfiguration p) s = .next
            (({ s with cfg := { s.cfg with store := some j } }).progress p .executing)
          ∧ j.port = p ∧ j.dockCount = (if n = 0 then s.cfg.params.dockCount else n.toNat)
          ∧ j.role = (if r = 1 then .rider else if r = 2 then .operator else s.cfg.params.portARole)
          ∧ j.image = imageBytes { s.cfg.params with portARole := j.role, dockCount := j.dockCount } s.cfg.identity
          ∧ j.image.length = 132))
    ∧ (∀ (j : StoreJob) (readBack : List Byte), s.cfg.store = some j →
      (s.memoryCanonical → j.image.length = 132 → readBack = j.image → crc16Ok readBack = true →
        ∃ t, exec (.storeConfigurationEnd readBack) s = .next t
          ∧ t = { s with cfg := t.cfg, portA := t.portA, portB := t.portB }
          ∧ t.cfg = { s.cfg with serial := t.cfg.serial, store := none, valid := true, storedRole := some j.role,
                                 storedCount := some j.dockCount }
          ∧ t.loadImage true = j.image ∧ (∀ a, 132 ≤ a → memRead t.cfg.serial a = memRead s.cfg.serial a)
          ∧ Answered s t j.port ⟨.done, []⟩)
      ∧ (readBack ≠ j.image ∨ crc16Ok readBack = false →
        ∃ t, exec (.storeConfigurationEnd readBack) s = .next t
          ∧ t = { s with cfg := t.cfg, portA := t.portA, portB := t.portB }
          ∧ t.cfg = { s.cfg with serial := t.cfg.serial, store := none, valid := false, storedRole := none,
                                 storedCount := none }
          ∧ t.portA.pending = { s.portA.pending with configInvalid := true }
          ∧ t.portB.pending = { s.portB.pending with configInvalid := true }
          ∧ Answered s t j.port ⟨.verifyFailed, []⟩))

/-- A station restart (R196, R197): presentations, results, referrals, reservations, TENTATIVE entries, loads and list changes
are gone, and the credit that the TENTATIVE entries hold is refunded, clamped at the cap (R63); keys, FINAL entries, the
active list and the last-issued id stay. Records, next sequence, lost count and owed records are kept, no slot is reserved,
and the owed pass runs in the same event (R178). Docks are UNKNOWN, their applied level counted, their last serial kept; the
line and the Release Controller are as after a reset; READY is low and only the request's own response is kept.
STATION_RESTARTED is what is pending on both ports: that the eligible counts which fall and the records which the owed pass
writes leave no flag beside it is the model's choice, log entries 29 and 30. -/
def Obligations.RestartTaken : Prop :=
  ∀ (s : State) (p : PortId), Executes s p 0x73 .operator [] →
    ∃ t, exec (.restartStation p) s = .next t
      ∧ t.pres = { entries := [], results := [], admission := none }
      ∧ t.tokens = { s.tokens with load := .none, changes := [], replacing := false,
                                   used := s.tokens.used.filter UsedEntry.isFinal }
      ∧ t.refs = { s.refs with opened := [], link := .down } ∧ t.resv = []
      ∧ t.line = Line.reset ∧ t.rel = Releases.reset ∧ t.recs.reserved = 0
      ∧ (∃ u, u = ({ s with recs := { s.recs with reserved := 0 } }).owedPass ∧ t.recs = u.recs
        ∧ ∀ d, (t.dock d).owed = (u.dock d).owed)
      ∧ ((∀ d, (s.dock d).owed = none) → t.recs = { s.recs with reserved := 0 })
      ∧ t.cfg = { s.cfg with ready := false, store := none }
      ∧ t.clock = { s.clock with credit := t.clock.credit }
      ∧ ((∀ e ∈ s.tokens.used, e.isFinal = true) → t.clock.credit = s.clock.credit)
      ∧ (s.creditBounded → t.clock.credit =
          min (s.clock.credit + (s.tokens.used.map UsedEntry.creditHeld).sum) (16 * s.cfg.params.cCap))
      ∧ (∀ d, (t.dock d).state = .unknown ∧ (t.dock d).applied = (s.dock d).applied ∧ (t.dock d).picture = none
          ∧ (t.dock d).bike = none ∧ (t.dock d).owner = none ∧ (t.dock d).heldBy = none
          ∧ (t.dock d).lastSerial = (s.dock d).lastSerial ∧ (t.dock d).interrupted = (s.dock d).state.inRelease)
      ∧ (∀ d, t.chg d = { Charge.reset with counted := s.watts (s.dock d).applied })
      ∧ (t.port p).outstanding = [⟨⟨0x73, []⟩, .complete ⟨.done, []⟩⟩]
      ∧ (∀ q, q ≠ p → (t.port q).outstanding = [])
      ∧ (∀ q, (t.port q).role = (s.port q).role ∧ (t.port q).pending = EventFlags.restarted
          ∧ (t.port q).enabled = EventFlags.restarted ∧ (t.port q).errorCount = 0)

/-- A cold reset leaves the state of `State.reset` (R197), but for the commands that wait, the contents of the serial memory,
which take the bytes that a store in progress had written (log entry 9), and a select period that was open, which is lost (log
entry 37). -/
def Obligations.ColdResetLeavesReset : Prop :=
  ∀ (s : State) (n : Nat), ∃ t, exec (.coldReset n) s = .next t
    ∧ t = { State.reset with
        cfg := { State.reset.cfg with serial := t.cfg.serial }, pending := s.pending,
        portA := { Port.reset with select := if s.portA.select = .idle then .idle else .lost },
        portB := { Port.reset with select := if s.portB.select = .idle then .idle else .lost } }
    ∧ (s.cfg.store = none → t.cfg.serial = s.cfg.serial)
    ∧ (∀ j, s.cfg.store = some j → s.memoryCanonical → ∀ a,
        memRead t.cfg.serial a = if a < min n j.image.length then byteAt j.image a else memRead s.cfg.serial a)

/-- At the end of a configuration load (R193, R194) the image's values, or the defaults when the image is not valid, are in
force, READY is high and the ports hold their roles. Each port keeps the pending flags and enables of its role's kinds (R188),
and gets CONFIG_INVALID when the image is not valid, and, as the OPERATOR, CLOCK_UNSYNCED when the sync is LAPSED (R29),
RECORDS_WAITING with a record held and RECORDS_NEAR_FULL with 96 (R178). The credit is clamped to the cap in force (R39), the
sync follows the comparison of its age with the lifetime in force (R30), the counted allocations are those of the levels in
force (R167), and the arbiter makes its first grant (R127). A request that waits since before the end is answered as during
the load, under its port's old role, and is not repeated; that it is answered in this event is the model's choice, log entry
32. A load that has ended does not end again (log entry 1, the model's choice). -/
def Obligations.LoadEnds : Prop :=
  ∀ (s : State) (answers : Bool),
    (s.cfg.ready = true → exec (.configurationLoadEnd answers) s = .next s)
    ∧ (s.cfg.ready = false → ∃ t, exec (.configurationLoadEnd answers) s = .next t
      ∧ t.cfg = { s.cfg with
          params := if imageValid (s.loadImage answers) then imageParams (s.loadImage answers) else Params.default,
          ready := true, valid := imageValid (s.loadImage answers),
          identity := if imageValid (s.loadImage answers) then fieldVal (s.loadImage answers) 2 4 else 0,
          storedRole := none, storedCount := none }
      ∧ t.portA.role = some t.cfg.params.portARole ∧ t.portB.role = some t.cfg.params.portARole.other
      ∧ (∀ p role, (t.port p).role = some role → ∀ k,
        ((t.port p).enabled.get k = true ↔ k ∈ role.kinds ∧ (s.port p).enabled.get k = true)
        ∧ ((t.port p).pending.get k = true ↔ (k ∈ role.kinds ∧ (s.port p).pending.get k = true)
          ∨ (k = .configInvalid ∧ imageValid (s.loadImage answers) = false)
          ∨ (role = .operator ∧ ((k = .clockUnsynced ∧ t.clock.sync = .lapsed) ∨ (k = .recordsWaiting ∧ s.recs.records ≠ [])
            ∨ (k = .recordsNearFull ∧ 96 ≤ s.recs.records.length)))))
      ∧ t.clock = { s.clock with credit := t.clock.credit, sync := t.clock.sync }
      ∧ t.clock.credit = min s.clock.credit (16 * t.cfg.params.cCap)
      ∧ t.clock.sync = (if s.clock.sync = .never then .never
          else if t.cfg.params.syncLifetime < s.uptime - s.clock.lastSync then .lapsed else .current)
      ∧ (∀ d, t.chg d = { s.chg d with counted := t.watts (s.dock d).applied })
      ∧ t.docks = s.docks ∧ t.recs = s.recs ∧ t.tokens = s.tokens ∧ t.pres = s.pres ∧ t.line.links = s.line.links
      ∧ (∃ u : State, t = u.lineGrant ∧ u.line = s.line ∧ u.cfg = t.cfg ∧ u.docks = s.docks)
      ∧ ∀ p before o after, (s.port p).outstanding = before ++ o :: after → before.length + after.length ≤ 1 →
        (∀ q ∈ before, q.progress ≠ .executing) → (t.port p).outstanding.length = before.length + after.length + 1
        ∧ (o.isComplete = true → (t.port p).outstanding[before.length]? = some o)
        ∧ (o.progress = .waiting → ∃ a, (t.port p).outstanding[before.length]? = some { o with progress := .complete a }
          ∧ AnsweredEarly s p o.request (∀ q ∈ before, q.isComplete = true) a))
end

