-- ==== Sys2Proof/Laws/Queues.lean ====
section
/-! SUPPORT. The command queues as lists: each operation on a queue keeps at most one entry for a dock (R117, R119, R120). -/

namespace Sys2Proof.Machine

/-- The docks of a queue, in its order. -/
abbrev docksOf (q : List LineEntry) : List DockId := q.map LineEntry.dock

theorem entryOf_none {q : List LineEntry} {d : DockId} : entryOf q d = none ↔ d ∉ docksOf q := by
  simp only [entryOf, docksOf, List.find?_eq_none, List.mem_map, decide_eq_true_eq, not_exists, not_and]

theorem entryOf_dock {q : List LineEntry} {d : DockId} {e : LineEntry} (h : entryOf q d = some e) : e.dock = d := by
  simpa using List.find?_some h

theorem withoutDock_nodup {q : List LineEntry} (d : DockId) (h : (docksOf q).Nodup) : (docksOf (withoutDock q d)).Nodup :=
  h.sublist (List.filter_sublist.map _)

theorem not_mem_withoutDock (q : List LineEntry) (d : DockId) : d ∉ docksOf (withoutDock q d) := by
  simp [docksOf, withoutDock, List.mem_filter]

theorem replaced_docks (q : List LineEntry) (d : DockId) (c : LineCommand) :
    docksOf (q.map (fun e => if e.dock = d then { e with command := c } else e)) = docksOf q := by
  simp only [docksOf, List.map_map]
  apply List.map_congr_left
  intro e _
  simp only [Function.comp]
  split <;> rfl

theorem appended_nodup {q : List LineEntry} {d : DockId} {e : LineEntry} (hd : e.dock = d) (hn : d ∉ docksOf q)
    (h : (docksOf q).Nodup) : (docksOf (q ++ [e])).Nodup := by
  subst hd
  rw [docksOf, List.map_append]
  exact List.nodup_append.2 ⟨h, List.nodup_singleton _, by
    intro a ha b hb
    simp only [List.map_cons, List.map_nil, List.mem_singleton] at hb
    rintro rfl
    exact hn (hb ▸ ha)⟩

theorem insertAtPlace_perm (q : List LineEntry) (n : Nat) (e : LineEntry) : (insertAtPlace q n e).Perm (e :: q) := by
  unfold insertAtPlace
  refine List.perm_middle.trans ?_
  rw [List.take_append_drop]

theorem inserted_nodup {q : List LineEntry} {e : LineEntry} (n : Nat) (hn : e.dock ∉ docksOf q)
    (h : (docksOf q).Nodup) : (docksOf (insertAtPlace q n e)).Nodup :=
  (((insertAtPlace_perm q n e).map LineEntry.dock).nodup_iff).2 (List.nodup_cons.2 ⟨hn, h⟩)

theorem passed_docks (q : List LineEntry) : docksOf (q.map LineEntry.passed) = docksOf q := by
  simp only [docksOf, List.map_map]
  rfl

theorem takeFree_sublist {q rest : List LineEntry} {e : LineEntry} {n : Nat} (h : takeFree q = some (e, n, rest)) :
    (docksOf rest).Sublist (docksOf q) := by
  induction q generalizing e n rest with
  | nil => cases h
  | cons x xs ih =>
    unfold takeFree at h
    split at h
    · split at h
      · rename_i y m r hr
        cases h
        exact (ih hr).cons_cons x.dock
      · cases h
    · cases h
      exact List.sublist_cons_self _ _

end Sys2Proof.Machine
end

