-- ==== Sys2Proof/Laws/State.lean ====
section
/-! SUPPORT. One lemma per field per update of the state, true by computation, so that no later proof unfolds a record
update; and what reading one record after writing one gives. -/

namespace Sys2Proof.Machine

/-! ## setPort -/

@[simp] theorem State.setPort_clock (s : State) (p : PortId) (x : Port) : (s.setPort p x).clock = s.clock := by cases p <;> rfl
@[simp] theorem State.setPort_cfg (s : State) (p : PortId) (x : Port) : (s.setPort p x).cfg = s.cfg := by cases p <;> rfl
@[simp] theorem State.setPort_pres (s : State) (p : PortId) (x : Port) : (s.setPort p x).pres = s.pres := by cases p <;> rfl
@[simp] theorem State.setPort_tokens (s : State) (p : PortId) (x : Port) : (s.setPort p x).tokens = s.tokens := by cases p <;> rfl
@[simp] theorem State.setPort_refs (s : State) (p : PortId) (x : Port) : (s.setPort p x).refs = s.refs := by cases p <;> rfl
@[simp] theorem State.setPort_resv (s : State) (p : PortId) (x : Port) : (s.setPort p x).resv = s.resv := by cases p <;> rfl
@[simp] theorem State.setPort_docks (s : State) (p : PortId) (x : Port) : (s.setPort p x).docks = s.docks := by cases p <;> rfl
@[simp] theorem State.setPort_line (s : State) (p : PortId) (x : Port) : (s.setPort p x).line = s.line := by cases p <;> rfl
@[simp] theorem State.setPort_rel (s : State) (p : PortId) (x : Port) : (s.setPort p x).rel = s.rel := by cases p <;> rfl
@[simp] theorem State.setPort_charge (s : State) (p : PortId) (x : Port) : (s.setPort p x).charge = s.charge := by cases p <;> rfl
@[simp] theorem State.setPort_recs (s : State) (p : PortId) (x : Port) : (s.setPort p x).recs = s.recs := by cases p <;> rfl
@[simp] theorem State.setPort_pending (s : State) (p : PortId) (x : Port) : (s.setPort p x).pending = s.pending := by cases p <;> rfl

/-! ## setDock -/

@[simp] theorem State.setDock_clock (s : State) (d : DockId) (x : Dock) : (s.setDock d x).clock = s.clock := rfl
@[simp] theorem State.setDock_cfg (s : State) (d : DockId) (x : Dock) : (s.setDock d x).cfg = s.cfg := rfl
@[simp] theorem State.setDock_portA (s : State) (d : DockId) (x : Dock) : (s.setDock d x).portA = s.portA := rfl
@[simp] theorem State.setDock_portB (s : State) (d : DockId) (x : Dock) : (s.setDock d x).portB = s.portB := rfl
@[simp] theorem State.setDock_pres (s : State) (d : DockId) (x : Dock) : (s.setDock d x).pres = s.pres := rfl
@[simp] theorem State.setDock_tokens (s : State) (d : DockId) (x : Dock) : (s.setDock d x).tokens = s.tokens := rfl
@[simp] theorem State.setDock_refs (s : State) (d : DockId) (x : Dock) : (s.setDock d x).refs = s.refs := rfl
@[simp] theorem State.setDock_resv (s : State) (d : DockId) (x : Dock) : (s.setDock d x).resv = s.resv := rfl
@[simp] theorem State.setDock_line (s : State) (d : DockId) (x : Dock) : (s.setDock d x).line = s.line := rfl
@[simp] theorem State.setDock_rel (s : State) (d : DockId) (x : Dock) : (s.setDock d x).rel = s.rel := rfl
@[simp] theorem State.setDock_charge (s : State) (d : DockId) (x : Dock) : (s.setDock d x).charge = s.charge := rfl
@[simp] theorem State.setDock_recs (s : State) (d : DockId) (x : Dock) : (s.setDock d x).recs = s.recs := rfl
@[simp] theorem State.setDock_pending (s : State) (d : DockId) (x : Dock) : (s.setDock d x).pending = s.pending := rfl

/-! ## setLink -/

@[simp] theorem State.setLink_clock (s : State) (d : DockId) (x : Link) : (s.setLink d x).clock = s.clock := rfl
@[simp] theorem State.setLink_cfg (s : State) (d : DockId) (x : Link) : (s.setLink d x).cfg = s.cfg := rfl
@[simp] theorem State.setLink_portA (s : State) (d : DockId) (x : Link) : (s.setLink d x).portA = s.portA := rfl
@[simp] theorem State.setLink_portB (s : State) (d : DockId) (x : Link) : (s.setLink d x).portB = s.portB := rfl
@[simp] theorem State.setLink_pres (s : State) (d : DockId) (x : Link) : (s.setLink d x).pres = s.pres := rfl
@[simp] theorem State.setLink_tokens (s : State) (d : DockId) (x : Link) : (s.setLink d x).tokens = s.tokens := rfl
@[simp] theorem State.setLink_refs (s : State) (d : DockId) (x : Link) : (s.setLink d x).refs = s.refs := rfl
@[simp] theorem State.setLink_resv (s : State) (d : DockId) (x : Link) : (s.setLink d x).resv = s.resv := rfl
@[simp] theorem State.setLink_docks (s : State) (d : DockId) (x : Link) : (s.setLink d x).docks = s.docks := rfl
@[simp] theorem State.setLink_rel (s : State) (d : DockId) (x : Link) : (s.setLink d x).rel = s.rel := rfl
@[simp] theorem State.setLink_charge (s : State) (d : DockId) (x : Link) : (s.setLink d x).charge = s.charge := rfl
@[simp] theorem State.setLink_recs (s : State) (d : DockId) (x : Link) : (s.setLink d x).recs = s.recs := rfl
@[simp] theorem State.setLink_pending (s : State) (d : DockId) (x : Link) : (s.setLink d x).pending = s.pending := rfl

/-! ## setChg -/

@[simp] theorem State.setChg_clock (s : State) (d : DockId) (x : Charge) : (s.setChg d x).clock = s.clock := rfl
@[simp] theorem State.setChg_cfg (s : State) (d : DockId) (x : Charge) : (s.setChg d x).cfg = s.cfg := rfl
@[simp] theorem State.setChg_portA (s : State) (d : DockId) (x : Charge) : (s.setChg d x).portA = s.portA := rfl
@[simp] theorem State.setChg_portB (s : State) (d : DockId) (x : Charge) : (s.setChg d x).portB = s.portB := rfl
@[simp] theorem State.setChg_pres (s : State) (d : DockId) (x : Charge) : (s.setChg d x).pres = s.pres := rfl
@[simp] theorem State.setChg_tokens (s : State) (d : DockId) (x : Charge) : (s.setChg d x).tokens = s.tokens := rfl
@[simp] theorem State.setChg_refs (s : State) (d : DockId) (x : Charge) : (s.setChg d x).refs = s.refs := rfl
@[simp] theorem State.setChg_resv (s : State) (d : DockId) (x : Charge) : (s.setChg d x).resv = s.resv := rfl
@[simp] theorem State.setChg_docks (s : State) (d : DockId) (x : Charge) : (s.setChg d x).docks = s.docks := rfl
@[simp] theorem State.setChg_line (s : State) (d : DockId) (x : Charge) : (s.setChg d x).line = s.line := rfl
@[simp] theorem State.setChg_rel (s : State) (d : DockId) (x : Charge) : (s.setChg d x).rel = s.rel := rfl
@[simp] theorem State.setChg_recs (s : State) (d : DockId) (x : Charge) : (s.setChg d x).recs = s.recs := rfl
@[simp] theorem State.setChg_pending (s : State) (d : DockId) (x : Charge) : (s.setChg d x).pending = s.pending := rfl

/-! ## setRel -/

@[simp] theorem State.setRel_clock (s : State) (d : DockId) (x : Option ReleaseState) : (s.setRel d x).clock = s.clock := rfl
@[simp] theorem State.setRel_cfg (s : State) (d : DockId) (x : Option ReleaseState) : (s.setRel d x).cfg = s.cfg := rfl
@[simp] theorem State.setRel_portA (s : State) (d : DockId) (x : Option ReleaseState) : (s.setRel d x).portA = s.portA := rfl
@[simp] theorem State.setRel_portB (s : State) (d : DockId) (x : Option ReleaseState) : (s.setRel d x).portB = s.portB := rfl
@[simp] theorem State.setRel_pres (s : State) (d : DockId) (x : Option ReleaseState) : (s.setRel d x).pres = s.pres := rfl
@[simp] theorem State.setRel_tokens (s : State) (d : DockId) (x : Option ReleaseState) : (s.setRel d x).tokens = s.tokens := rfl
@[simp] theorem State.setRel_refs (s : State) (d : DockId) (x : Option ReleaseState) : (s.setRel d x).refs = s.refs := rfl
@[simp] theorem State.setRel_resv (s : State) (d : DockId) (x : Option ReleaseState) : (s.setRel d x).resv = s.resv := rfl
@[simp] theorem State.setRel_docks (s : State) (d : DockId) (x : Option ReleaseState) : (s.setRel d x).docks = s.docks := rfl
@[simp] theorem State.setRel_line (s : State) (d : DockId) (x : Option ReleaseState) : (s.setRel d x).line = s.line := rfl
@[simp] theorem State.setRel_charge (s : State) (d : DockId) (x : Option ReleaseState) : (s.setRel d x).charge = s.charge := rfl
@[simp] theorem State.setRel_recs (s : State) (d : DockId) (x : Option ReleaseState) : (s.setRel d x).recs = s.recs := rfl
@[simp] theorem State.setRel_pending (s : State) (d : DockId) (x : Option ReleaseState) : (s.setRel d x).pending = s.pending := rfl

/-! ## setQueue -/

@[simp] theorem State.setQueue_clock (s : State) (k : CommandClass) (q : List LineEntry) : (s.setQueue k q).clock = s.clock := rfl
@[simp] theorem State.setQueue_cfg (s : State) (k : CommandClass) (q : List LineEntry) : (s.setQueue k q).cfg = s.cfg := rfl
@[simp] theorem State.setQueue_portA (s : State) (k : CommandClass) (q : List LineEntry) : (s.setQueue k q).portA = s.portA := rfl
@[simp] theorem State.setQueue_portB (s : State) (k : CommandClass) (q : List LineEntry) : (s.setQueue k q).portB = s.portB := rfl
@[simp] theorem State.setQueue_pres (s : State) (k : CommandClass) (q : List LineEntry) : (s.setQueue k q).pres = s.pres := rfl
@[simp] theorem State.setQueue_tokens (s : State) (k : CommandClass) (q : List LineEntry) : (s.setQueue k q).tokens = s.tokens := rfl
@[simp] theorem State.setQueue_refs (s : State) (k : CommandClass) (q : List LineEntry) : (s.setQueue k q).refs = s.refs := rfl
@[simp] theorem State.setQueue_resv (s : State) (k : CommandClass) (q : List LineEntry) : (s.setQueue k q).resv = s.resv := rfl
@[simp] theorem State.setQueue_docks (s : State) (k : CommandClass) (q : List LineEntry) : (s.setQueue k q).docks = s.docks := rfl
@[simp] theorem State.setQueue_rel (s : State) (k : CommandClass) (q : List LineEntry) : (s.setQueue k q).rel = s.rel := rfl
@[simp] theorem State.setQueue_charge (s : State) (k : CommandClass) (q : List LineEntry) : (s.setQueue k q).charge = s.charge := rfl
@[simp] theorem State.setQueue_recs (s : State) (k : CommandClass) (q : List LineEntry) : (s.setQueue k q).recs = s.recs := rfl
@[simp] theorem State.setQueue_pending (s : State) (k : CommandClass) (q : List LineEntry) : (s.setQueue k q).pending = s.pending := rfl

/-! ## raiseFor -/

@[simp] theorem State.raiseFor_clock (s : State) (r : Role) (k : EventKind) : (s.raiseFor r k).clock = s.clock := rfl
@[simp] theorem State.raiseFor_cfg (s : State) (r : Role) (k : EventKind) : (s.raiseFor r k).cfg = s.cfg := rfl
@[simp] theorem State.raiseFor_pres (s : State) (r : Role) (k : EventKind) : (s.raiseFor r k).pres = s.pres := rfl
@[simp] theorem State.raiseFor_tokens (s : State) (r : Role) (k : EventKind) : (s.raiseFor r k).tokens = s.tokens := rfl
@[simp] theorem State.raiseFor_refs (s : State) (r : Role) (k : EventKind) : (s.raiseFor r k).refs = s.refs := rfl
@[simp] theorem State.raiseFor_resv (s : State) (r : Role) (k : EventKind) : (s.raiseFor r k).resv = s.resv := rfl
@[simp] theorem State.raiseFor_docks (s : State) (r : Role) (k : EventKind) : (s.raiseFor r k).docks = s.docks := rfl
@[simp] theorem State.raiseFor_line (s : State) (r : Role) (k : EventKind) : (s.raiseFor r k).line = s.line := rfl
@[simp] theorem State.raiseFor_rel (s : State) (r : Role) (k : EventKind) : (s.raiseFor r k).rel = s.rel := rfl
@[simp] theorem State.raiseFor_charge (s : State) (r : Role) (k : EventKind) : (s.raiseFor r k).charge = s.charge := rfl
@[simp] theorem State.raiseFor_recs (s : State) (r : Role) (k : EventKind) : (s.raiseFor r k).recs = s.recs := rfl
@[simp] theorem State.raiseFor_pending (s : State) (r : Role) (k : EventKind) : (s.raiseFor r k).pending = s.pending := rfl

/-! ## raiseBoth -/

@[simp] theorem State.raiseBoth_clock (s : State) (k : EventKind) : (s.raiseBoth k).clock = s.clock := rfl
@[simp] theorem State.raiseBoth_cfg (s : State) (k : EventKind) : (s.raiseBoth k).cfg = s.cfg := rfl
@[simp] theorem State.raiseBoth_pres (s : State) (k : EventKind) : (s.raiseBoth k).pres = s.pres := rfl
@[simp] theorem State.raiseBoth_tokens (s : State) (k : EventKind) : (s.raiseBoth k).tokens = s.tokens := rfl
@[simp] theorem State.raiseBoth_refs (s : State) (k : EventKind) : (s.raiseBoth k).refs = s.refs := rfl
@[simp] theorem State.raiseBoth_resv (s : State) (k : EventKind) : (s.raiseBoth k).resv = s.resv := rfl
@[simp] theorem State.raiseBoth_docks (s : State) (k : EventKind) : (s.raiseBoth k).docks = s.docks := rfl
@[simp] theorem State.raiseBoth_line (s : State) (k : EventKind) : (s.raiseBoth k).line = s.line := rfl
@[simp] theorem State.raiseBoth_rel (s : State) (k : EventKind) : (s.raiseBoth k).rel = s.rel := rfl
@[simp] theorem State.raiseBoth_charge (s : State) (k : EventKind) : (s.raiseBoth k).charge = s.charge := rfl
@[simp] theorem State.raiseBoth_recs (s : State) (k : EventKind) : (s.raiseBoth k).recs = s.recs := rfl
@[simp] theorem State.raiseBoth_pending (s : State) (k : EventKind) : (s.raiseBoth k).pending = s.pending := rfl

/-! ## addCredit -/

@[simp] theorem State.addCredit_cfg (s : State) (n : Nat) : (s.addCredit n).cfg = s.cfg := rfl
@[simp] theorem State.addCredit_portA (s : State) (n : Nat) : (s.addCredit n).portA = s.portA := rfl
@[simp] theorem State.addCredit_portB (s : State) (n : Nat) : (s.addCredit n).portB = s.portB := rfl
@[simp] theorem State.addCredit_pres (s : State) (n : Nat) : (s.addCredit n).pres = s.pres := rfl
@[simp] theorem State.addCredit_tokens (s : State) (n : Nat) : (s.addCredit n).tokens = s.tokens := rfl
@[simp] theorem State.addCredit_refs (s : State) (n : Nat) : (s.addCredit n).refs = s.refs := rfl
@[simp] theorem State.addCredit_resv (s : State) (n : Nat) : (s.addCredit n).resv = s.resv := rfl
@[simp] theorem State.addCredit_docks (s : State) (n : Nat) : (s.addCredit n).docks = s.docks := rfl
@[simp] theorem State.addCredit_line (s : State) (n : Nat) : (s.addCredit n).line = s.line := rfl
@[simp] theorem State.addCredit_rel (s : State) (n : Nat) : (s.addCredit n).rel = s.rel := rfl
@[simp] theorem State.addCredit_charge (s : State) (n : Nat) : (s.addCredit n).charge = s.charge := rfl
@[simp] theorem State.addCredit_recs (s : State) (n : Nat) : (s.addCredit n).recs = s.recs := rfl
@[simp] theorem State.addCredit_pending (s : State) (n : Nat) : (s.addCredit n).pending = s.pending := rfl

/-! ## setUsed -/

@[simp] theorem State.setUsed_clock (s : State) (u : List UsedEntry) : (s.setUsed u).clock = s.clock := rfl
@[simp] theorem State.setUsed_cfg (s : State) (u : List UsedEntry) : (s.setUsed u).cfg = s.cfg := rfl
@[simp] theorem State.setUsed_portA (s : State) (u : List UsedEntry) : (s.setUsed u).portA = s.portA := rfl
@[simp] theorem State.setUsed_portB (s : State) (u : List UsedEntry) : (s.setUsed u).portB = s.portB := rfl
@[simp] theorem State.setUsed_pres (s : State) (u : List UsedEntry) : (s.setUsed u).pres = s.pres := rfl
@[simp] theorem State.setUsed_refs (s : State) (u : List UsedEntry) : (s.setUsed u).refs = s.refs := rfl
@[simp] theorem State.setUsed_resv (s : State) (u : List UsedEntry) : (s.setUsed u).resv = s.resv := rfl
@[simp] theorem State.setUsed_docks (s : State) (u : List UsedEntry) : (s.setUsed u).docks = s.docks := rfl
@[simp] theorem State.setUsed_line (s : State) (u : List UsedEntry) : (s.setUsed u).line = s.line := rfl
@[simp] theorem State.setUsed_rel (s : State) (u : List UsedEntry) : (s.setUsed u).rel = s.rel := rfl
@[simp] theorem State.setUsed_charge (s : State) (u : List UsedEntry) : (s.setUsed u).charge = s.charge := rfl
@[simp] theorem State.setUsed_recs (s : State) (u : List UsedEntry) : (s.setUsed u).recs = s.recs := rfl
@[simp] theorem State.setUsed_pending (s : State) (u : List UsedEntry) : (s.setUsed u).pending = s.pending := rfl

/-! ## setParams -/

@[simp] theorem State.setParams_clock (s : State) (x : Params) : (s.setParams x).clock = s.clock := rfl
@[simp] theorem State.setParams_portA (s : State) (x : Params) : (s.setParams x).portA = s.portA := rfl
@[simp] theorem State.setParams_portB (s : State) (x : Params) : (s.setParams x).portB = s.portB := rfl
@[simp] theorem State.setParams_pres (s : State) (x : Params) : (s.setParams x).pres = s.pres := rfl
@[simp] theorem State.setParams_tokens (s : State) (x : Params) : (s.setParams x).tokens = s.tokens := rfl
@[simp] theorem State.setParams_refs (s : State) (x : Params) : (s.setParams x).refs = s.refs := rfl
@[simp] theorem State.setParams_resv (s : State) (x : Params) : (s.setParams x).resv = s.resv := rfl
@[simp] theorem State.setParams_docks (s : State) (x : Params) : (s.setParams x).docks = s.docks := rfl
@[simp] theorem State.setParams_line (s : State) (x : Params) : (s.setParams x).line = s.line := rfl
@[simp] theorem State.setParams_rel (s : State) (x : Params) : (s.setParams x).rel = s.rel := rfl
@[simp] theorem State.setParams_charge (s : State) (x : Params) : (s.setParams x).charge = s.charge := rfl
@[simp] theorem State.setParams_recs (s : State) (x : Params) : (s.setParams x).recs = s.recs := rfl
@[simp] theorem State.setParams_pending (s : State) (x : Params) : (s.setParams x).pending = s.pending := rfl

/-! ## setSync -/

@[simp] theorem State.setSync_cfg (s : State) (c : SyncCondition) : (s.setSync c).cfg = s.cfg := rfl
@[simp] theorem State.setSync_portA (s : State) (c : SyncCondition) : (s.setSync c).portA = s.portA := rfl
@[simp] theorem State.setSync_portB (s : State) (c : SyncCondition) : (s.setSync c).portB = s.portB := rfl
@[simp] theorem State.setSync_pres (s : State) (c : SyncCondition) : (s.setSync c).pres = s.pres := rfl
@[simp] theorem State.setSync_tokens (s : State) (c : SyncCondition) : (s.setSync c).tokens = s.tokens := rfl
@[simp] theorem State.setSync_refs (s : State) (c : SyncCondition) : (s.setSync c).refs = s.refs := rfl
@[simp] theorem State.setSync_resv (s : State) (c : SyncCondition) : (s.setSync c).resv = s.resv := rfl
@[simp] theorem State.setSync_docks (s : State) (c : SyncCondition) : (s.setSync c).docks = s.docks := rfl
@[simp] theorem State.setSync_line (s : State) (c : SyncCondition) : (s.setSync c).line = s.line := rfl
@[simp] theorem State.setSync_rel (s : State) (c : SyncCondition) : (s.setSync c).rel = s.rel := rfl
@[simp] theorem State.setSync_charge (s : State) (c : SyncCondition) : (s.setSync c).charge = s.charge := rfl
@[simp] theorem State.setSync_recs (s : State) (c : SyncCondition) : (s.setSync c).recs = s.recs := rfl
@[simp] theorem State.setSync_pending (s : State) (c : SyncCondition) : (s.setSync c).pending = s.pending := rfl

/-! ## reserveSlot -/

@[simp] theorem State.reserveSlot_clock (s : State) : s.reserveSlot.clock = s.clock := rfl
@[simp] theorem State.reserveSlot_cfg (s : State) : s.reserveSlot.cfg = s.cfg := rfl
@[simp] theorem State.reserveSlot_portA (s : State) : s.reserveSlot.portA = s.portA := rfl
@[simp] theorem State.reserveSlot_portB (s : State) : s.reserveSlot.portB = s.portB := rfl
@[simp] theorem State.reserveSlot_pres (s : State) : s.reserveSlot.pres = s.pres := rfl
@[simp] theorem State.reserveSlot_tokens (s : State) : s.reserveSlot.tokens = s.tokens := rfl
@[simp] theorem State.reserveSlot_refs (s : State) : s.reserveSlot.refs = s.refs := rfl
@[simp] theorem State.reserveSlot_resv (s : State) : s.reserveSlot.resv = s.resv := rfl
@[simp] theorem State.reserveSlot_docks (s : State) : s.reserveSlot.docks = s.docks := rfl
@[simp] theorem State.reserveSlot_line (s : State) : s.reserveSlot.line = s.line := rfl
@[simp] theorem State.reserveSlot_rel (s : State) : s.reserveSlot.rel = s.rel := rfl
@[simp] theorem State.reserveSlot_charge (s : State) : s.reserveSlot.charge = s.charge := rfl
@[simp] theorem State.reserveSlot_pending (s : State) : s.reserveSlot.pending = s.pending := rfl

/-! ## releaseSlot -/

@[simp] theorem State.releaseSlot_clock (s : State) : s.releaseSlot.clock = s.clock := rfl
@[simp] theorem State.releaseSlot_cfg (s : State) : s.releaseSlot.cfg = s.cfg := rfl
@[simp] theorem State.releaseSlot_portA (s : State) : s.releaseSlot.portA = s.portA := rfl
@[simp] theorem State.releaseSlot_portB (s : State) : s.releaseSlot.portB = s.portB := rfl
@[simp] theorem State.releaseSlot_pres (s : State) : s.releaseSlot.pres = s.pres := rfl
@[simp] theorem State.releaseSlot_tokens (s : State) : s.releaseSlot.tokens = s.tokens := rfl
@[simp] theorem State.releaseSlot_refs (s : State) : s.releaseSlot.refs = s.refs := rfl
@[simp] theorem State.releaseSlot_resv (s : State) : s.releaseSlot.resv = s.resv := rfl
@[simp] theorem State.releaseSlot_docks (s : State) : s.releaseSlot.docks = s.docks := rfl
@[simp] theorem State.releaseSlot_line (s : State) : s.releaseSlot.line = s.line := rfl
@[simp] theorem State.releaseSlot_rel (s : State) : s.releaseSlot.rel = s.rel := rfl
@[simp] theorem State.releaseSlot_charge (s : State) : s.releaseSlot.charge = s.charge := rfl
@[simp] theorem State.releaseSlot_pending (s : State) : s.releaseSlot.pending = s.pending := rfl

/-! ## dequeue -/

@[simp] theorem State.dequeue_clock (s : State) (d : DockId) : (s.dequeue d).clock = s.clock := rfl
@[simp] theorem State.dequeue_cfg (s : State) (d : DockId) : (s.dequeue d).cfg = s.cfg := rfl
@[simp] theorem State.dequeue_portA (s : State) (d : DockId) : (s.dequeue d).portA = s.portA := rfl
@[simp] theorem State.dequeue_portB (s : State) (d : DockId) : (s.dequeue d).portB = s.portB := rfl
@[simp] theorem State.dequeue_pres (s : State) (d : DockId) : (s.dequeue d).pres = s.pres := rfl
@[simp] theorem State.dequeue_tokens (s : State) (d : DockId) : (s.dequeue d).tokens = s.tokens := rfl
@[simp] theorem State.dequeue_refs (s : State) (d : DockId) : (s.dequeue d).refs = s.refs := rfl
@[simp] theorem State.dequeue_resv (s : State) (d : DockId) : (s.dequeue d).resv = s.resv := rfl
@[simp] theorem State.dequeue_docks (s : State) (d : DockId) : (s.dequeue d).docks = s.docks := rfl
@[simp] theorem State.dequeue_line (s : State) (d : DockId) : (s.dequeue d).line = s.line := rfl
@[simp] theorem State.dequeue_charge (s : State) (d : DockId) : (s.dequeue d).charge = s.charge := rfl
@[simp] theorem State.dequeue_recs (s : State) (d : DockId) : (s.dequeue d).recs = s.recs := rfl
@[simp] theorem State.dequeue_pending (s : State) (d : DockId) : (s.dequeue d).pending = s.pending := rfl

/-! ## mapEntry -/

@[simp] theorem State.mapEntry_clock (s : State) (t : Byte) (f : Entry → Entry) : (s.mapEntry t f).clock = s.clock := rfl
@[simp] theorem State.mapEntry_cfg (s : State) (t : Byte) (f : Entry → Entry) : (s.mapEntry t f).cfg = s.cfg := rfl
@[simp] theorem State.mapEntry_portA (s : State) (t : Byte) (f : Entry → Entry) : (s.mapEntry t f).portA = s.portA := rfl
@[simp] theorem State.mapEntry_portB (s : State) (t : Byte) (f : Entry → Entry) : (s.mapEntry t f).portB = s.portB := rfl
@[simp] theorem State.mapEntry_tokens (s : State) (t : Byte) (f : Entry → Entry) : (s.mapEntry t f).tokens = s.tokens := rfl
@[simp] theorem State.mapEntry_refs (s : State) (t : Byte) (f : Entry → Entry) : (s.mapEntry t f).refs = s.refs := rfl
@[simp] theorem State.mapEntry_resv (s : State) (t : Byte) (f : Entry → Entry) : (s.mapEntry t f).resv = s.resv := rfl
@[simp] theorem State.mapEntry_docks (s : State) (t : Byte) (f : Entry → Entry) : (s.mapEntry t f).docks = s.docks := rfl
@[simp] theorem State.mapEntry_line (s : State) (t : Byte) (f : Entry → Entry) : (s.mapEntry t f).line = s.line := rfl
@[simp] theorem State.mapEntry_rel (s : State) (t : Byte) (f : Entry → Entry) : (s.mapEntry t f).rel = s.rel := rfl
@[simp] theorem State.mapEntry_charge (s : State) (t : Byte) (f : Entry → Entry) : (s.mapEntry t f).charge = s.charge := rfl
@[simp] theorem State.mapEntry_recs (s : State) (t : Byte) (f : Entry → Entry) : (s.mapEntry t f).recs = s.recs := rfl
@[simp] theorem State.mapEntry_pending (s : State) (t : Byte) (f : Entry → Entry) : (s.mapEntry t f).pending = s.pending := rfl

/-! ## dropEntry -/

@[simp] theorem State.dropEntry_clock (s : State) (t : Byte) : (s.dropEntry t).clock = s.clock := rfl
@[simp] theorem State.dropEntry_cfg (s : State) (t : Byte) : (s.dropEntry t).cfg = s.cfg := rfl
@[simp] theorem State.dropEntry_portA (s : State) (t : Byte) : (s.dropEntry t).portA = s.portA := rfl
@[simp] theorem State.dropEntry_portB (s : State) (t : Byte) : (s.dropEntry t).portB = s.portB := rfl
@[simp] theorem State.dropEntry_tokens (s : State) (t : Byte) : (s.dropEntry t).tokens = s.tokens := rfl
@[simp] theorem State.dropEntry_refs (s : State) (t : Byte) : (s.dropEntry t).refs = s.refs := rfl
@[simp] theorem State.dropEntry_resv (s : State) (t : Byte) : (s.dropEntry t).resv = s.resv := rfl
@[simp] theorem State.dropEntry_docks (s : State) (t : Byte) : (s.dropEntry t).docks = s.docks := rfl
@[simp] theorem State.dropEntry_line (s : State) (t : Byte) : (s.dropEntry t).line = s.line := rfl
@[simp] theorem State.dropEntry_rel (s : State) (t : Byte) : (s.dropEntry t).rel = s.rel := rfl
@[simp] theorem State.dropEntry_charge (s : State) (t : Byte) : (s.dropEntry t).charge = s.charge := rfl
@[simp] theorem State.dropEntry_recs (s : State) (t : Byte) : (s.dropEntry t).recs = s.recs := rfl
@[simp] theorem State.dropEntry_pending (s : State) (t : Byte) : (s.dropEntry t).pending = s.pending := rfl

/-! ## setMark -/

@[simp] theorem State.setMark_clock (s : State) (d : DockId) (c : Option Nat) : (s.setMark d c).clock = s.clock := rfl
@[simp] theorem State.setMark_cfg (s : State) (d : DockId) (c : Option Nat) : (s.setMark d c).cfg = s.cfg := rfl
@[simp] theorem State.setMark_portA (s : State) (d : DockId) (c : Option Nat) : (s.setMark d c).portA = s.portA := rfl
@[simp] theorem State.setMark_portB (s : State) (d : DockId) (c : Option Nat) : (s.setMark d c).portB = s.portB := rfl
@[simp] theorem State.setMark_pres (s : State) (d : DockId) (c : Option Nat) : (s.setMark d c).pres = s.pres := rfl
@[simp] theorem State.setMark_tokens (s : State) (d : DockId) (c : Option Nat) : (s.setMark d c).tokens = s.tokens := rfl
@[simp] theorem State.setMark_refs (s : State) (d : DockId) (c : Option Nat) : (s.setMark d c).refs = s.refs := rfl
@[simp] theorem State.setMark_resv (s : State) (d : DockId) (c : Option Nat) : (s.setMark d c).resv = s.resv := rfl
@[simp] theorem State.setMark_line (s : State) (d : DockId) (c : Option Nat) : (s.setMark d c).line = s.line := rfl
@[simp] theorem State.setMark_rel (s : State) (d : DockId) (c : Option Nat) : (s.setMark d c).rel = s.rel := rfl
@[simp] theorem State.setMark_charge (s : State) (d : DockId) (c : Option Nat) : (s.setMark d c).charge = s.charge := rfl
@[simp] theorem State.setMark_recs (s : State) (d : DockId) (c : Option Nat) : (s.setMark d c).recs = s.recs := rfl
@[simp] theorem State.setMark_pending (s : State) (d : DockId) (c : Option Nat) : (s.setMark d c).pending = s.pending := rfl

/-! ## charged -/

@[simp] theorem State.charged_cfg (s : State) (n : Nat) : (s.charged n).cfg = s.cfg := rfl
@[simp] theorem State.charged_portA (s : State) (n : Nat) : (s.charged n).portA = s.portA := rfl
@[simp] theorem State.charged_portB (s : State) (n : Nat) : (s.charged n).portB = s.portB := rfl
@[simp] theorem State.charged_pres (s : State) (n : Nat) : (s.charged n).pres = s.pres := rfl
@[simp] theorem State.charged_tokens (s : State) (n : Nat) : (s.charged n).tokens = s.tokens := rfl
@[simp] theorem State.charged_refs (s : State) (n : Nat) : (s.charged n).refs = s.refs := rfl
@[simp] theorem State.charged_resv (s : State) (n : Nat) : (s.charged n).resv = s.resv := rfl
@[simp] theorem State.charged_docks (s : State) (n : Nat) : (s.charged n).docks = s.docks := rfl
@[simp] theorem State.charged_line (s : State) (n : Nat) : (s.charged n).line = s.line := rfl
@[simp] theorem State.charged_rel (s : State) (n : Nat) : (s.charged n).rel = s.rel := rfl
@[simp] theorem State.charged_charge (s : State) (n : Nat) : (s.charged n).charge = s.charge := rfl
@[simp] theorem State.charged_recs (s : State) (n : Nat) : (s.charged n).recs = s.recs := rfl
@[simp] theorem State.charged_pending (s : State) (n : Nat) : (s.charged n).pending = s.pending := rfl

/-! ## Records -/

@[simp] theorem at64_put64_same {α : Type} (v : Vector α 64) (d : DockId) (x : α) : at64 (put64 v d x) d = x := by
  simp only [at64, put64, Vector.get_eq_getElem]
  exact Vector.getElem_set_self _

theorem at64_put64_ne {α : Type} (v : Vector α 64) (d e : DockId) (x : α) (h : e ≠ d) :
    at64 (put64 v d x) e = at64 v e := by
  have : d.val ≠ e.val := fun hv => h (Fin.ext hv.symm)
  simp only [at64, put64, Vector.get_eq_getElem]
  exact Vector.getElem_set_ne d.isLt e.isLt this

@[simp] theorem State.dock_setDock (s : State) (d : DockId) (x : Dock) : (s.setDock d x).dock d = x :=
  at64_put64_same _ _ _

theorem State.dock_setDock_ne (s : State) (d e : DockId) (x : Dock) (h : e ≠ d) : (s.setDock d x).dock e = s.dock e :=
  at64_put64_ne _ _ _ _ h

@[simp] theorem State.chg_setChg (s : State) (d : DockId) (x : Charge) : (s.setChg d x).chg d = x :=
  at64_put64_same _ _ _

theorem State.chg_setChg_ne (s : State) (d e : DockId) (x : Charge) (h : e ≠ d) : (s.setChg d x).chg e = s.chg e :=
  at64_put64_ne _ _ _ _ h

@[simp] theorem State.relState_setRel (s : State) (d : DockId) (x : Option ReleaseState) : (s.setRel d x).relState d = x :=
  at64_put64_same _ _ _

theorem State.relState_setRel_ne (s : State) (d e : DockId) (x : Option ReleaseState) (h : e ≠ d) :
    (s.setRel d x).relState e = s.relState e :=
  at64_put64_ne _ _ _ _ h

@[simp] theorem State.link_setLink (s : State) (d : DockId) (x : Link) : (s.setLink d x).link d = x :=
  at64_put64_same _ _ _

theorem State.link_setLink_ne (s : State) (d e : DockId) (x : Link) (h : e ≠ d) : (s.setLink d x).link e = s.link e :=
  at64_put64_ne _ _ _ _ h

@[simp] theorem State.port_setPort (s : State) (p : PortId) (x : Port) : (s.setPort p x).port p = x := by cases p <;> rfl

theorem State.port_setPort_ne (s : State) (p q : PortId) (x : Port) (h : q ≠ p) : (s.setPort p x).port q = s.port q := by
  cases p <;> cases q <;> first | rfl | exact absurd rfl h

end Sys2Proof.Machine
end

