-- ==== Sys2Proof/Laws/Frames.lean ====
section
/-! SUPPORT. What the shared operations of the dock line, the charge and the release blocks can change, said once: each
operation keeps every component that its frame does not name, and keeps at most one queued command for a dock (R117). -/

namespace Sys2Proof.Machine

/-! ## Two frames -/

/-- A change of the two command queues, of the transaction in progress and of the charge records alone; the queues keep at
most one entry for a dock. -/
def QueueStep (s t : State) : Prop :=
  t = { s with line := { s.line with latchQ := t.line.latchQ, chargeQ := t.line.chargeQ, txn := t.line.txn },
               charge := t.charge }
    ∧ (s.commandsDistinct → t.commandsDistinct)

/-- The same, with the latch grant queue, the pulses and the release states. -/
def ChargeStep (s t : State) : Prop :=
  t = { s with line := { s.line with latchQ := t.line.latchQ, chargeQ := t.line.chargeQ, txn := t.line.txn },
               rel := t.rel, charge := t.charge }
    ∧ (s.commandsDistinct → t.commandsDistinct)

theorem QueueStep.refl (s : State) : QueueStep s s := ⟨rfl, id⟩

theorem QueueStep.trans {s t u : State} (h : QueueStep s t) (k : QueueStep t u) : QueueStep s u := by
  obtain ⟨h1, h2⟩ := h
  obtain ⟨k1, k2⟩ := k
  refine ⟨?_, k2 ∘ h2⟩
  rw [k1, h1]

theorem QueueStep.withTxn {s t : State} (h : QueueStep s t) (x : Option Transaction) :
    QueueStep s { t with line := { t.line with txn := x } } := by
  obtain ⟨h1, h2⟩ := h
  refine ⟨?_, h2⟩
  rw [h1]

theorem ChargeStep.refl (s : State) : ChargeStep s s := ⟨rfl, id⟩

theorem ChargeStep.trans {s t u : State} (h : ChargeStep s t) (k : ChargeStep t u) : ChargeStep s u := by
  obtain ⟨h1, h2⟩ := h
  obtain ⟨k1, k2⟩ := k
  refine ⟨?_, k2 ∘ h2⟩
  rw [k1, h1]

theorem QueueStep.toCharge {s t : State} (h : QueueStep s t) : ChargeStep s t := by
  obtain ⟨h1, h2⟩ := h
  refine ⟨?_, h2⟩
  rw [h1]

/-- What a ChargeStep keeps, component by component. -/
theorem ChargeStep.keeps {s t : State} (h : ChargeStep s t) :
    t.clock = s.clock ∧ t.cfg = s.cfg ∧ t.portA = s.portA ∧ t.portB = s.portB ∧ t.pres = s.pres ∧ t.tokens = s.tokens
      ∧ t.refs = s.refs ∧ t.resv = s.resv ∧ t.docks = s.docks ∧ t.recs = s.recs ∧ t.pending = s.pending
      ∧ t.line.links = s.line.links ∧ t.line.ptr = s.line.ptr := by
  rw [h.1]
  exact ⟨rfl, rfl, rfl, rfl, rfl, rfl, rfl, rfl, rfl, rfl, rfl, rfl, rfl⟩

/-! ## Queues and charge records -/

theorem setChg_queueStep (s : State) (d : DockId) (x : Charge) : QueueStep s (s.setChg d x) := ⟨rfl, id⟩

/-- A queue replaced by one that still holds at most one entry for a dock. -/
theorem setQueue_queueStep (s : State) (k : CommandClass) (q : List LineEntry)
    (h : (docksOf (s.line.queue k)).Nodup → (docksOf q).Nodup) : QueueStep s (s.setQueue k q) := by
  cases k
  · exact ⟨rfl, fun x => ⟨h x.1, x.2⟩⟩
  · exact ⟨rfl, fun x => ⟨x.1, h x.2⟩⟩

theorem toIdle_queueStep (s : State) (d : DockId) (o : Option Nat) : QueueStep s (s.toIdle d o) := ⟨rfl, id⟩

theorem capsReplaced_queueStep (s : State) (d : DockId) : QueueStep s (s.capsReplaced d) := by
  unfold State.capsReplaced
  split
  · exact toIdle_queueStep _ _ _
  · exact QueueStep.refl _

/-- Asking a command changes its queue, and the contract whose CHARGE_CAPS it replaces (R117, R157). -/
theorem ask_queueStep (s : State) (d : DockId) (c : LineCommand) : QueueStep s (s.ask d c) := by
  unfold State.ask
  split
  · exact QueueStep.refl _
  · rename_i k _
    split
    · dsimp only
      split
      · rename_i h
        exact setQueue_queueStep _ _ _ (appended_nodup rfl (entryOf_none.1 h))
      · have h1 := setQueue_queueStep s k
          ((s.line.queue k).map (fun e => if e.dock = d then { e with command := c } else e))
          (by rw [replaced_docks]; exact id)
        split
        · exact h1.trans (capsReplaced_queueStep _ _)
        · exact h1
    · exact QueueStep.refl _

theorem removeEntry_queueStep (s : State) (d : DockId) (k : CommandClass) : QueueStep s (s.removeEntry d k) := by
  have h := setQueue_queueStep s k _ (withoutDock_nodup (q := s.line.queue k) d)
  unfold State.removeEntry
  dsimp only
  split
  · split
    · exact h.withTxn _
    · exact h
  · exact h

/-- A withdrawal changes the queue of its class and the transaction in progress (R118). -/
theorem withdraw_queueStep (s : State) (d : DockId) (k : CommandClass) : QueueStep s (s.withdraw d k) := by
  unfold State.withdraw
  dsimp only
  split
  · split
    · exact (removeEntry_queueStep s d k).withTxn _
    · exact removeEntry_queueStep s d k
  · exact removeEntry_queueStep s d k

theorem withdrawCaps_queueStep (s : State) (d : DockId) : QueueStep s (s.withdrawCaps d) := by
  unfold State.withdrawCaps
  split
  · exact withdraw_queueStep _ _ _
  · exact QueueStep.refl _

theorem dropCommands_queueStep (s : State) (d : DockId) : QueueStep s (s.dropCommands d) :=
  (removeEntry_queueStep _ _ _).trans (removeEntry_queueStep _ _ _)

theorem capsCompleted_queueStep (s : State) (d : DockId) : QueueStep s (s.capsCompleted d) := by
  unfold State.capsCompleted
  split
  · exact setChg_queueStep _ _ _
  · exact QueueStep.refl _

/-- The settlement of the command in flight changes its queue and the contract of a CHARGE_CAPS (R119, R157). -/
theorem settleCommand_queueStep (s : State) (t : Transaction) (good : Bool) : QueueStep s (s.settleCommand t good) := by
  unfold State.settleCommand
  split
  · exact QueueStep.refl _
  · rename_i k _
    split
    · split
      · exact capsCompleted_queueStep _ _
      · exact QueueStep.refl _
    · dsimp only
      split
      · rename_i newer hn
        have h1 := setQueue_queueStep s k
          (insertAtPlace (withoutDock (s.line.queue k) t.dock) t.place { newer with resendWait := true })
          (fun h => inserted_nodup _ (by rw [entryOf_dock hn]; exact not_mem_withoutDock _ _) (withoutDock_nodup _ h))
        split
        · exact h1.trans (capsReplaced_queueStep _ _)
        · exact h1
      · rename_i hn
        split
        · exact QueueStep.refl _
        · exact setQueue_queueStep _ _ _ (inserted_nodup _ (entryOf_none.1 hn))

theorem askStop_queueStep (s : State) (d : DockId) : QueueStep s (s.askStop d) :=
  (ask_queueStep _ _ _).trans (setChg_queueStep _ _ _)

theorem askUnlessLowering_queueStep (s : State) (d : DockId) (c : LineCommand) :
    QueueStep s (s.askUnlessLowering d c) := by
  unfold State.askUnlessLowering
  split
  · exact QueueStep.refl _
  · exact ask_queueStep _ _ _

theorem raiseGrant_queueStep (s : State) (d : DockId) (l : Level) : QueueStep s (s.raiseGrant d l) := ⟨rfl, id⟩

theorem activate_queueStep (s : State) (d : DockId) (l : Level) (c : LineCommand) : QueueStep s (s.activate d l c) := by
  refine QueueStep.trans ?_ (ask_queueStep _ _ _)
  exact ⟨rfl, id⟩

theorem passOver_queueStep (s : State) (ds : List DockId) : QueueStep s (s.passOver ds) := by
  induction ds generalizing s with
  | nil => exact QueueStep.refl _
  | cons d ds ih =>
    unfold State.passOver
    split
    · exact ih _
    · split
      · exact (activate_queueStep _ _ _ _).trans (ih _)
      · exact QueueStep.refl _

/-- The grant pass changes contracts and asks commands (R155). -/
theorem grantPass_queueStep (s : State) : QueueStep s s.grantPass := by
  unfold State.grantPass
  split
  · exact QueueStep.refl _
  · exact passOver_queueStep _ _

theorem trimOne_queueStep (s : State) (d : DockId) : QueueStep s (s.trimOne d) :=
  (setChg_queueStep _ _ _).trans (ask_queueStep _ _ _)

theorem trimOver_queueStep (s : State) (x : Int) (r : Nat) (ds : List DockId) : QueueStep s (s.trimOver x r ds) := by
  induction ds generalizing s r with
  | nil => exact QueueStep.refl _
  | cons d ds ih =>
    unfold State.trimOver
    split
    · exact QueueStep.refl _
    · exact (trimOne_queueStep _ _).trans (ih _ _)

/-- The head test changes contracts and asks trims (R131, R161). -/
theorem testHead_queueStep (s : State) : QueueStep s s.testHead := by
  unfold State.testHead
  split
  · exact trimOver_queueStep _ _ _ _
  · exact QueueStep.refl _

/-- What follows a change of headroom changes contracts and asks commands (R154). -/
theorem settle_queueStep (s t : State) : QueueStep t (settle s t) := by
  unfold settle
  dsimp only
  split <;> split
  · exact (testHead_queueStep _).trans (grantPass_queueStep _)
  · exact grantPass_queueStep _
  · exact testHead_queueStep _
  · exact QueueStep.refl _

/-! ## Grant queue, pulses, contracts -/

theorem dequeue_chargeStep (s : State) (d : DockId) : ChargeStep s (s.dequeue d) := ⟨rfl, id⟩

theorem setRel_chargeStep (s : State) (d : DockId) (x : Option ReleaseState) : ChargeStep s (s.setRel d x) := ⟨rfl, id⟩

theorem leaveGrantQueue_chargeStep (s : State) (d : DockId) : ChargeStep s (s.leaveGrantQueue d) :=
  (dequeue_chargeStep s d).trans (settle_queueStep _ _).toCharge

theorem allocationClear_chargeStep (s : State) (d : DockId) : ChargeStep s (s.allocationClear d) := by
  unfold State.allocationClear
  split
  · split
    · exact ⟨rfl, id⟩
    · exact ChargeStep.refl _
  · exact ChargeStep.refl _

theorem allocationNotClear_chargeStep (s : State) (d : DockId) : ChargeStep s (s.allocationNotClear d) := by
  unfold State.allocationNotClear
  split
  · split
    · exact ⟨rfl, id⟩
    · exact ChargeStep.refl _
  · exact ChargeStep.refl _

theorem claimTest_chargeStep (s : State) (d : DockId) : ChargeStep s (s.claimTest d) := by
  unfold State.claimTest
  split
  · exact allocationClear_chargeStep _ _
  · exact ChargeStep.refl _

/-- A counted allocation changed changes the charge and release blocks and asks commands (R153). -/
theorem setCounted_chargeStep (s : State) (d : DockId) (n : Nat) : ChargeStep s (s.setCounted d n) := by
  unfold State.setCounted
  dsimp only
  split
  · exact ChargeStep.refl _
  · refine ChargeStep.trans ?_ (settle_queueStep _ _).toCharge
    split
    · split
      · exact (setChg_queueStep _ _ _).toCharge.trans (allocationClear_chargeStep _ _)
      · split
        · exact (setChg_queueStep _ _ _).toCharge.trans (allocationNotClear_chargeStep _ _)
        · exact (setChg_queueStep _ _ _).toCharge
    · exact (setChg_queueStep _ _ _).toCharge

/-- The end of a pulse changes the charge and release blocks and asks commands (R132). -/
theorem endPulse_chargeStep (s : State) (d : DockId) : ChargeStep s (s.endPulse d) := by
  unfold State.endPulse
  split
  · split
    · refine ChargeStep.trans ?_ (settle_queueStep _ _).toCharge
      exact ⟨rfl, id⟩
    · exact ChargeStep.refl _
  · exact ChargeStep.refl _

theorem openContract_queueStep (s : State) (d : DockId) : QueueStep s (s.openContract d) := by
  unfold State.openContract
  split
  · split
    · exact ⟨rfl, id⟩
    · exact QueueStep.refl _
  · exact QueueStep.refl _

theorem endContract_queueStep (s : State) (d : DockId) : QueueStep s (s.endContract d) := by
  unfold State.endContract
  split
  · exact QueueStep.refl _
  · dsimp only
    split
    · exact (setChg_queueStep _ _ _).trans (askStop_queueStep _ _)
    · exact setChg_queueStep _ _ _

theorem offerIfDue_queueStep (s : State) (d : DockId) : QueueStep s (s.offerIfDue d) := by
  unfold State.offerIfDue
  split
  · split
    · exact (ask_queueStep _ _ _).trans (setChg_queueStep _ _ _)
    · exact QueueStep.refl _
  · exact QueueStep.refl _

theorem chargeClaimed_chargeStep (s : State) (d : DockId) : ChargeStep s (s.chargeClaimed d) := by
  unfold State.chargeClaimed
  dsimp only
  refine ChargeStep.trans (QueueStep.toCharge ?_) (claimTest_chargeStep _ _)
  have h2 : QueueStep s (match (s.setChg d { s.chg d with held := true }).chg d |>.contract with
      | some .idle => (s.setChg d { s.chg d with held := true }).toIdle d none
      | some .offered => ((s.setChg d { s.chg d with held := true }).withdrawCaps d).toIdle d none
      | some .waiting => (s.setChg d { s.chg d with held := true }).toIdle d none
      | some .active | some .trimmed =>
        ((s.setChg d { s.chg d with held := true }).setChg d
          { (s.setChg d { s.chg d with held := true }).chg d with
            contract := some .stopping, granted := none, requested := none }).askStop d
      | _ => s.setChg d { s.chg d with held := true }) := by
    split
    · exact ⟨rfl, id⟩
    · exact ((setChg_queueStep _ _ _).trans (withdrawCaps_queueStep _ _)).trans (toIdle_queueStep _ _ _)
    · exact ⟨rfl, id⟩
    · refine QueueStep.trans ?_ (askStop_queueStep _ _)
      exact ⟨rfl, id⟩
    · refine QueueStep.trans ?_ (askStop_queueStep _ _)
      exact ⟨rfl, id⟩
    · exact ⟨rfl, id⟩
  split
  · exact h2.trans (askStop_queueStep _ _)
  · exact h2

theorem chargeLeft_queueStep (s : State) (d : DockId) : QueueStep s (s.chargeLeft d) := by
  unfold State.chargeLeft
  dsimp only
  split
  · split
    · exact ⟨rfl, id⟩
    · exact ⟨rfl, id⟩
  · exact (setChg_queueStep _ _ _).trans (endContract_queueStep _ _)

theorem rejectContract_queueStep (s : State) (d : DockId) : QueueStep s (s.rejectContract d) :=
  (askUnlessLowering_queueStep _ _ _).trans (toIdle_queueStep _ _ _)

theorem toFull_queueStep (s : State) (d : DockId) : QueueStep s (s.toFull d) := ⟨rfl, id⟩

theorem answerRequest_queueStep (s : State) (d : DockId) (l : Level) : QueueStep s (s.answerRequest d l) := by
  unfold State.answerRequest
  split
  · exact rejectContract_queueStep _ _
  · split
    · exact activate_queueStep _ _ _ _
    · exact (setChg_queueStep _ _ _).trans (askUnlessLowering_queueStep _ _ _)

theorem changeRequest_queueStep (s : State) (d : DockId) (l : Level) : QueueStep s (s.changeRequest d l) := by
  unfold State.changeRequest
  split
  · exact rejectContract_queueStep _ _
  · exact setChg_queueStep _ _ _

theorem stepRequest_queueStep (s : State) (d : DockId) (l g : Level) : QueueStep s (s.stepRequest d l g) := by
  unfold State.stepRequest
  split
  · exact (setChg_queueStep _ _ _).trans (ask_queueStep _ _ _)
  · split
    · exact (raiseGrant_queueStep _ _ _).trans (ask_queueStep _ _ _)
    · exact QueueStep.refl _

theorem contractMessage_queueStep (s : State) (d : DockId) (m : ChargeMessage) (a b : Bool) :
    QueueStep s (s.contractMessage d m a b) := by
  have stop : QueueStep s ((s.toFull d).askStop d) := (toFull_queueStep s d).trans (askStop_queueStep _ _)
  unfold State.contractMessage
  dsimp only
  repeat' split
  all_goals first
    | exact QueueStep.refl _
    | exact askUnlessLowering_queueStep _ _ _
    | exact toFull_queueStep _ _
    | exact answerRequest_queueStep _ _ _
    | exact changeRequest_queueStep _ _ _
    | exact stepRequest_queueStep _ _ _ _
    | exact stop

/-- A charge message changes the contract and asks commands (R152). -/
theorem chargeMessage_queueStep (s : State) (d : DockId) (m : ChargeMessage) (o : Bool) :
    QueueStep s (s.chargeMessage d m o) :=
  (contractMessage_queueStep _ _ _ _ _).trans (setChg_queueStep _ _ _)

theorem settledContract_queueStep (s : State) (d : DockId) (a : Option Level) : QueueStep s (s.settledContract d a) := by
  unfold State.settledContract
  repeat' split
  all_goals first
    | exact QueueStep.refl _
    | exact ask_queueStep _ _ _
    | exact askStop_queueStep _ _

theorem stopStray_queueStep (s : State) (d : DockId) (a : Option Level) : QueueStep s (s.stopStray d a) := by
  unfold State.stopStray
  dsimp only
  repeat' split
  all_goals first
    | exact askStop_queueStep _ _
    | exact QueueStep.refl _

/-- A report's applied level changes the charge and release blocks and asks commands (R153). -/
theorem chargeReport_chargeStep (s : State) (d : DockId) (a : Option Level) (b : Bool) :
    ChargeStep s (s.chargeReport d a b) := by
  unfold State.chargeReport
  dsimp only
  split
  · exact (((setChg_queueStep _ _ _).toCharge.trans (setCounted_chargeStep _ _ _)).trans
      (settledContract_queueStep _ _ _).toCharge).trans (stopStray_queueStep _ _ _).toCharge
  · exact (setCounted_chargeStep _ _ _).trans (stopStray_queueStep _ _ _).toCharge

theorem fullEnds_queueStep (s : State) (d : DockId) : QueueStep s (s.fullEnds d) := by
  unfold State.fullEnds
  split
  · split
    · exact toIdle_queueStep _ _ _
    · exact QueueStep.refl _
  · exact QueueStep.refl _

/-- The end of a dock's release stages changes the charge and release blocks and the latch command (R130, R132). -/
theorem leaveStages_chargeStep (s : State) (d : DockId) : ChargeStep s (s.leaveStages d) := by
  unfold State.leaveStages
  dsimp only
  refine ChargeStep.trans ?_ (setRel_chargeStep _ _ _)
  have h1 := (leaveGrantQueue_chargeStep s d).trans (endPulse_chargeStep (s.leaveGrantQueue d) d)
  split
  · exact h1.trans (withdraw_queueStep _ _ _).toCharge
  · exact h1

end Sys2Proof.Machine
end

