-- ==== Sys2Proof/Laws/Internal.lean ====
section
/-! SUPPORT. What the work inside the part can change, said once: the relation `Internal` holds from a state to the state that
any shared operation of the Dock Table, the Release Controller, the Reservation Table and the Presentation Unit's endings
leaves. Time, sync, the parameters, the ports but for their pending flags, the keys, the revocation lists and the links stay;
collections lose members and do not gain them; the credit stays within its cap. -/

namespace Sys2Proof.Machine

structure Internal (s t : State) : Prop where
  clock : t.clock = { s.clock with credit := t.clock.credit }
  cfg : t.cfg = s.cfg
  portA : t.portA = { s.portA with pending := t.portA.pending }
  portB : t.portB = { s.portB with pending := t.portB.pending }
  admission : t.pres.admission = s.pres.admission
  tokens : t.tokens = { s.tokens with used := t.tokens.used }
  link : t.refs.link = s.refs.link
  lastIssued : t.refs.lastIssued = s.refs.lastIssued
  links : t.line.links = s.line.links
  ptr : t.line.ptr = s.line.ptr
  pending : t.pending = s.pending
  credit : s.creditBounded → t.creditBounded
  entries : (t.pres.entries.map Entry.tag).Sublist (s.pres.entries.map Entry.tag)
  results : t.pres.results.length + owedTotal t.pres.entries ≤ s.pres.results.length + owedTotal s.pres.entries
  used : (t.tokens.used.map UsedEntry.serial).Sublist (s.tokens.used.map UsedEntry.serial)
  opened : (t.refs.opened.map Referral.id).Sublist (s.refs.opened.map Referral.id)
  resv : t.resv.length = s.resv.length
  held : (heldCodes t.resv).Sublist (heldCodes s.resv)
  commands : s.commandsDistinct → t.commandsDistinct

theorem Internal.refl (s : State) : Internal s s :=
  ⟨rfl, rfl, rfl, rfl, rfl, rfl, rfl, rfl, rfl, rfl, rfl, id, .refl _, Nat.le_refl _, .refl _, .refl _, rfl, .refl _, id⟩

theorem Internal.trans {s t u : State} (h : Internal s t) (k : Internal t u) : Internal s u where
  clock := by rw [k.clock, h.clock]
  cfg := k.cfg.trans h.cfg
  portA := by rw [k.portA, h.portA]
  portB := by rw [k.portB, h.portB]
  admission := k.admission.trans h.admission
  tokens := by rw [k.tokens, h.tokens]
  link := k.link.trans h.link
  lastIssued := k.lastIssued.trans h.lastIssued
  links := k.links.trans h.links
  ptr := k.ptr.trans h.ptr
  pending := k.pending.trans h.pending
  credit := k.credit ∘ h.credit
  entries := k.entries.trans h.entries
  results := Nat.le_trans k.results h.results
  used := k.used.trans h.used
  opened := k.opened.trans h.opened
  resv := k.resv.trans h.resv
  held := k.held.trans h.held
  commands := k.commands ∘ h.commands

theorem ChargeStep.internal {s t : State} (h : ChargeStep s t) : Internal s t := by
  have hc := h.2
  obtain ⟨h1, h2, h3, h4, h5, h6, h7, h8, h9, h10, h11, h12, h13⟩ := h.keeps
  exact { clock := by rw [h1], cfg := h2, portA := by rw [h3], portB := by rw [h4], admission := by rw [h5],
          tokens := by rw [h6], link := by rw [h7], lastIssued := by rw [h7], links := h12, ptr := h13, pending := h11,
          credit := by unfold State.creditBounded State.creditCap; rw [h1, h2]; exact id,
          entries := by rw [h5], results := by rw [h5], used := by rw [h6], opened := by rw [h7], resv := by rw [h8],
          held := by rw [h8], commands := hc }

theorem QueueStep.internal {s t : State} (h : QueueStep s t) : Internal s t := h.toCharge.internal

/-! ## Single updates -/

theorem setDock_internal (s : State) (d : DockId) (x : Dock) : Internal s (s.setDock d x) :=
  { Internal.refl s with }

theorem setRel_internal (s : State) (d : DockId) (x : Option ReleaseState) : Internal s (s.setRel d x) :=
  (setRel_chargeStep s d x).internal

theorem setMark_internal (s : State) (d : DockId) (c : Option Nat) : Internal s (s.setMark d c) := setDock_internal _ _ _

theorem reserveSlot_internal (s : State) : Internal s s.reserveSlot := { Internal.refl s with }

theorem releaseSlot_internal (s : State) : Internal s s.releaseSlot := { Internal.refl s with }

/-- An event raised sets pending flags alone (R185). -/
theorem raiseFor_internal (s : State) (r : Role) (k : EventKind) : Internal s (s.raiseFor r k) :=
  { Internal.refl s with
    portA := by unfold State.raiseFor Port.raise; dsimp only; split <;> rfl
    portB := by unfold State.raiseFor Port.raise; dsimp only; split <;> rfl }

/-- A refill or a refund keeps the credit within its cap (R36, R38). -/
theorem addCredit_internal (s : State) (n : Nat) : Internal s (s.addCredit n) :=
  { Internal.refl s with clock := rfl, credit := fun _ => Nat.min_le_right _ _ }

theorem charged_internal (s : State) (n : Nat) : Internal s (s.charged n) :=
  { Internal.refl s with clock := rfl, credit := fun h => Nat.le_trans (Nat.sub_le _ _) h }

theorem setUsed_internal (s : State) (u : List UsedEntry)
    (h : (u.map UsedEntry.serial).Sublist (s.tokens.used.map UsedEntry.serial)) : Internal s (s.setUsed u) :=
  { Internal.refl s with tokens := rfl, used := h }

/-- Used-token entries that leave take no serial in (R55). -/
theorem filterUsed_internal (s : State) (p : UsedEntry → Bool) : Internal s (s.setUsed (s.tokens.used.filter p)) :=
  setUsed_internal _ _ (List.filter_sublist.map _)

theorem mapUsed_internal (s : State) (f : UsedEntry → UsedEntry) (h : ∀ e, (f e).serial = e.serial) :
    Internal s (s.setUsed (s.tokens.used.map f)) :=
  setUsed_internal _ _ (by
    rw [List.map_map, show UsedEntry.serial ∘ f = UsedEntry.serial from funext h])

theorem purgeUsed_internal (s : State) : Internal s s.purgeUsed := filterUsed_internal _ _

theorem removeTentative_internal (s : State) (n : Nat) (tag : Byte) : Internal s (s.removeTentative n tag) :=
  filterUsed_internal _ _

theorem replaceExpiry_internal (s : State) (tag : Byte) (x : Nat) : Internal s (s.replaceExpiry tag x) :=
  mapUsed_internal _ _ (fun e => by split <;> rfl)

theorem finalise_internal (s : State) (tag : Byte) (b : Option Nat) (d : DockId) (off : Bool) (c : Nat) :
    Internal s (s.finalise tag b d off c) :=
  mapUsed_internal _ _ (fun e => by split <;> rfl)

/-- The bounce rule removes one used-token entry and refunds (R149). -/
theorem bounce_internal (s : State) (b : Nat) : Internal s (s.bounce b).2 := by
  unfold State.bounce
  split
  · exact Internal.refl _
  · split
    · exact Internal.refl _
    · split
      · split
        · dsimp only
          split
          · exact (filterUsed_internal _ _).trans (addCredit_internal _ _)
          · exact filterUsed_internal _ _
        · exact Internal.refl _
      · exact Internal.refl _

/-! ## Records (R170 to R174) -/

theorem writeRecord_internal (s : State) (r : TripRecord) : Internal s (s.writeRecord r) := by
  have h : Internal s { s with recs := { s.recs with
      records := s.recs.records ++ [(⟨s.recs.nextSeq, r⟩ : QueuedRecord)], nextSeq := (s.recs.nextSeq + 1) % 65536 } } :=
    { Internal.refl s with }
  have h2 := h.trans (raiseFor_internal _ .operator .recordsWaiting)
  unfold State.writeRecord
  dsimp only
  split
  · exact h2.trans (raiseFor_internal _ _ _)
  · exact h2

theorem handOver_internal (s : State) (r : TripRecord) : Internal s (s.handOver r) := by
  unfold State.handOver
  split
  · exact writeRecord_internal _ _
  · split
    · exact setDock_internal _ _ _
    · exact { Internal.refl s with }

theorem writeOwed_internal (s : State) (d : DockId) : Internal s (s.writeOwed d) := by
  unfold State.writeOwed
  split
  · exact Internal.refl _
  · split
    · exact (setDock_internal _ _ _).trans (writeRecord_internal _ _)
    · exact Internal.refl _

/-- A fold of internal steps. -/
theorem foldl_internal {α : Type} (f : State → α → State) (h : ∀ s x, Internal s (f s x)) (xs : List α) (s : State) :
    Internal s (xs.foldl f s) := by
  induction xs generalizing s with
  | nil => exact Internal.refl _
  | cons x xs ih => exact (h s x).trans (ih _)

theorem owedPass_internal (s : State) : Internal s s.owedPass := foldl_internal _ writeOwed_internal _ _

theorem noteAvailability_internal (s t : State) : Internal t (State.noteAvailability s t) := by
  unfold State.noteAvailability
  split
  · exact Internal.refl _
  · exact raiseFor_internal _ _ _

/-- The end of an event writes owed records and sets AVAILABILITY_CHANGED (R109, R174). -/
theorem closeEvent_internal (s t : State) : Internal t (closeEvent s t) := by
  unfold closeEvent
  refine Internal.trans ?_ (noteAvailability_internal _ _)
  split
  · exact owedPass_internal _
  · exact Internal.refl _

/-! ## Reservations (chapter 5) -/

theorem mapHeld_length (c : Nat) (f : Reservation → Reservation) (rs : List Reservation) :
    (mapHeld c f rs).length = rs.length := List.length_map _

/-- A HELD entry changed with its code kept takes no code in (R78). -/
theorem heldCodes_mapHeld (c : Nat) (f : Reservation → Reservation) (h : ∀ r, (f r).code = r.code)
    (rs : List Reservation) : (heldCodes (mapHeld c f rs)).Sublist (heldCodes rs) := by
  induction rs with
  | nil => exact .refl _
  | cons r rs ih =>
    simp only [heldCodes, mapHeld, List.map_cons, List.filter_cons] at *
    by_cases hr : r.isHeld = true
    · by_cases hc : r.code = c
      · simp only [hr, hc, decide_true, Bool.and_self, if_true]
        split
        · simp only [List.map_cons, h, hc]
          exact ih.cons_cons _
        · exact ih.cons _
      · simp only [hr, hc, decide_false, Bool.and_false, Bool.false_eq_true, if_false, if_true, List.map_cons]
        exact ih.cons_cons _
    · simp only [hr, Bool.false_and, Bool.false_eq_true, if_false]
      exact ih

theorem mapHeld_internal (s : State) (c : Nat) (f : Reservation → Reservation) (h : ∀ r, (f r).code = r.code) :
    Internal s { s with resv := mapHeld c f s.resv } :=
  { Internal.refl s with resv := mapHeld_length _ _ _, held := heldCodes_mapHeld c f h _ }

theorem endReservation_internal (s : State) (c : Nat) (w : EndReason) : Internal s (s.endReservation c w) := by
  unfold State.endReservation
  split
  · exact Internal.refl _
  · refine Internal.trans (Internal.trans ?_ (setMark_internal _ _ _)) (raiseFor_internal _ _ _)
    exact mapHeld_internal s c _ (fun _ => rfl)

theorem moveHold_internal (s : State) (d : DockId) : Internal s (s.moveHold d) := by
  unfold State.moveHold
  split
  · exact Internal.refl _
  · dsimp only
    split
    · exact setMark_internal _ _ _
    · split
      · refine Internal.trans (Internal.trans (setMark_internal s d none) (Internal.trans ?_ (setMark_internal _ _ _)))
          (raiseFor_internal _ _ _)
        exact mapHeld_internal _ _ _ (fun _ => rfl)
      · refine Internal.trans (Internal.trans (setMark_internal s d none) ?_) (raiseFor_internal _ _ _)
        exact mapHeld_internal _ _ _ (fun _ => rfl)

theorem useReservation_internal (s : State) (b : Bool) (c : Nat) : Internal s (s.useReservation b c) := by
  unfold State.useReservation
  split
  · exact endReservation_internal _ _ _
  · exact Internal.refl _

end Sys2Proof.Machine
end

