-- ==== Sys2Proof/Laws/InternalDocks.lean ====
section
/-! SUPPORT. The operations of the Dock Table, of the Presentation Unit's endings, of the Release Controller and of the
judgement are internal (see Internal). -/

namespace Sys2Proof.Machine

/-! ## Dock Table (chapter 6) -/

theorem endContract_internal (s : State) (d : DockId) : Internal s (s.endContract d) := (endContract_queueStep s d).internal

theorem openContract_internal (s : State) (d : DockId) : Internal s (s.openContract d) := (openContract_queueStep s d).internal

theorem ask_internal (s : State) (d : DockId) (c : LineCommand) : Internal s (s.ask d c) := (ask_queueStep s d c).internal

theorem withdraw_internal (s : State) (d : DockId) (k : CommandClass) : Internal s (s.withdraw d k) :=
  (withdraw_queueStep s d k).internal

theorem chargeLeft_internal (s : State) (d : DockId) : Internal s (s.chargeLeft d) := (chargeLeft_queueStep s d).internal

theorem leaveStages_internal (s : State) (d : DockId) : Internal s (s.leaveStages d) := (leaveStages_chargeStep s d).internal

theorem leaveGrantQueue_internal (s : State) (d : DockId) : Internal s (s.leaveGrantQueue d) :=
  (leaveGrantQueue_chargeStep s d).internal

theorem endPulse_internal (s : State) (d : DockId) : Internal s (s.endPulse d) := (endPulse_chargeStep s d).internal

theorem setBike_internal (s : State) (d : DockId) (c : Contents) (n : Option Nat) : Internal s (s.setBike d c n) := by
  unfold State.setBike
  split
  · exact setDock_internal _ _ _
  · exact Internal.refl _

theorem anomaly_internal (s : State) (d : DockId) (b : Option Nat) : Internal s (s.anomaly d b) := handOver_internal _ _

/-- A return confirmed applies the bounce rule and hands a record over (R94, R149). -/
theorem recordReturn_internal (s : State) (d : DockId) (b : Option Nat) (f : Bool) : Internal s (s.recordReturn d b f) := by
  unfold State.recordReturn
  cases b with
  | none => exact handOver_internal _ _
  | some n => exact (bounce_internal s n).trans (handOver_internal _ _)

theorem enterFault_internal (s : State) (d : DockId) (c : FaultCause) : Internal s (s.enterFault d c) := by
  unfold State.enterFault
  exact (((setDock_internal _ _ _).trans (raiseFor_internal _ _ _)).trans (endContract_internal _ _)).trans
    (moveHold_internal _ _)

theorem enterEmpty_internal (s : State) (d : DockId) : Internal s (s.enterEmpty d) := setDock_internal _ _ _

theorem identityAlarm_internal (s : State) (d : DockId) : Internal s (s.identityAlarm d) := by
  unfold State.identityAlarm
  split
  · exact (setDock_internal _ _ _).trans (raiseFor_internal _ _ _)
  · exact Internal.refl _

theorem enterDocked_internal (s : State) (d : DockId) : Internal s (s.enterDocked d) :=
  ((setDock_internal _ _ _).trans (identityAlarm_internal _ _)).trans (openContract_internal _ _)

theorem startRelock_internal (s : State) (d : DockId) : Internal s (s.startRelock d) :=
  (ask_internal _ _ _).trans (setDock_internal _ _ _)

theorem unownedRelock_internal (s : State) (d : DockId) : Internal s (s.unownedRelock d) := by
  unfold State.unownedRelock
  dsimp only
  split
  · exact ((setDock_internal _ _ _).trans (setRel_internal _ _ _)).trans (startRelock_internal _ _)
  · exact (setDock_internal _ _ _).trans (setRel_internal _ _ _)

theorem faultBy_internal (s : State) (d : DockId) (c : FaultCause) (x : Contents) (n : Option Nat) :
    Internal s (s.faultBy d c x n) := by
  unfold State.faultBy
  split
  · exact (((enterFault_internal _ _ _).trans (anomaly_internal _ _ _)).trans (setBike_internal _ _ _ _)).trans
      (recordReturn_internal _ _ _ _)
  · exact enterFault_internal _ _ _

/-- What an UNKNOWN dock learns (R92). -/
theorem learn_internal (s : State) (d : DockId) (c : Contents) (l : LatchPosition) (n : Option Nat) :
    Internal s (s.learn d c l n) := by
  have h0 : Internal s (s.setDock d { s.dock d with interrupted := false }) := setDock_internal _ _ _
  unfold State.learn
  dsimp only
  split
  · split
    · exact (h0.trans (anomaly_internal _ _ _)).trans (enterEmpty_internal _ _)
    · exact h0.trans (enterEmpty_internal _ _)
  · exact h0.trans (enterFault_internal _ _ _)
  · exact h0.trans (enterFault_internal _ _ _)
  · have h1 := h0.trans (setBike_internal _ d c n)
    split
    · exact h1.trans (enterFault_internal _ _ _)
    · split
      · exact h1.trans (enterDocked_internal _ _)
      · exact h1.trans (unownedRelock_internal _ _)

/-- What an ARRIVING dock's confirmation does (R93, R94). -/
theorem arrive_internal (s : State) (d : DockId) (c : Contents) (l : LatchPosition) (n : Option Nat) :
    Internal s (s.arrive d c l n) := by
  unfold State.arrive
  dsimp only
  split
  · exact enterEmpty_internal _ _
  · exact enterFault_internal _ _ _
  · exact enterFault_internal _ _ _
  · have h1 := (setBike_internal s d c n).trans (recordReturn_internal _ d c.tag.number false)
    split
    · exact h1.trans (enterFault_internal _ _ _)
    · split
      · exact h1.trans (enterDocked_internal _ _)
      · exact h1.trans (unownedRelock_internal _ _)

theorem setNumber_internal (s : State) (d : DockId) (n : Option Nat) : Internal s (s.setNumber d n) := by
  unfold State.setNumber
  split
  · exact setDock_internal _ _ _
  · exact Internal.refl _

/-- What a DOCKED dock's confirmation does (R96 to R100). -/
theorem dockedConfirm_internal (s : State) (d : DockId) (c : Contents) (n : Option Nat) :
    Internal s (s.dockedConfirm d c n) := by
  unfold State.dockedConfirm
  split
  · exact Internal.refl _
  · split
    · exact (((anomaly_internal _ _ _).trans (enterEmpty_internal _ _)).trans (endContract_internal _ _)).trans
        (moveHold_internal _ _)
    · split
      · exact faultBy_internal _ _ _ _ _
      · split
        · split
          · exact ((setNumber_internal _ _ _).trans (identityAlarm_internal _ _)).trans (moveHold_internal _ _)
          · exact Internal.refl _
        · exact setNumber_internal _ _ _
        · exact Internal.refl _

/-- What the confirmation of a dock out of use does (R102). -/
theorem outOfUseConfirm_internal (s : State) (d : DockId) (c : Contents) (n : Option Nat) :
    Internal s (s.outOfUseConfirm d c n) := by
  unfold State.outOfUseConfirm
  dsimp only
  repeat' split
  all_goals first
    | exact Internal.refl _
    | exact setDock_internal _ _ _
    | exact setNumber_internal _ _ _
    | exact (setBike_internal _ _ _ _).trans (recordReturn_internal _ _ _ _)

theorem clearToUnknown_internal (s : State) (d : DockId) : Internal s (s.clearToUnknown d) := setDock_internal _ _ _

theorem takeOut_internal (s : State) (d : DockId) : Internal s (s.takeOut d) :=
  ((setDock_internal _ _ _).trans (endContract_internal _ _)).trans (moveHold_internal _ _)

/-! ## Presentations (1.6, 1.7) -/

theorem takeUnit_tags (tag : Byte) (es : List Entry) : (takeUnit tag es).map Entry.tag = es.map Entry.tag := by
  induction es with
  | nil => rfl
  | cons e es ih =>
    unfold takeUnit
    split
    · rfl
    · simp only [List.map_cons, ih]

/-- A unit taken from an entry that owes one lowers the owed-result count by one (R20). -/
theorem takeUnit_owed {tag : Byte} {es : List Entry} {e : Entry}
    (h : es.find? (fun x => decide (x.tag = tag)) = some e) (he : e.owed ≠ 0) :
    owedTotal (takeUnit tag es) + 1 = owedTotal es := by
  induction es with
  | nil => cases h
  | cons x xs ih =>
    unfold takeUnit
    simp only [List.find?_cons] at h
    by_cases hx : x.tag = tag
    · simp only [hx, decide_true, Option.some.injEq] at h
      subst h
      simp only [hx, if_true, owedTotal, List.map_cons, List.sum_cons]
      omega
    · simp only [hx, decide_false] at h
      simp only [hx, if_false, owedTotal, List.map_cons, List.sum_cons] at ih ⊢
      have := ih h
      omega

theorem owedTotal_filter (p : Entry → Bool) (es : List Entry) : owedTotal (es.filter p) ≤ owedTotal es := by
  induction es with
  | nil => exact Nat.le_refl _
  | cons x xs ih =>
    simp only [List.filter_cons, owedTotal] at *
    split
    · simp only [List.map_cons, List.sum_cons]
      omega
    · simp only [List.map_cons, List.sum_cons]
      omega

/-- An entry changed with its tag and its owed units kept (R3, R20). -/
theorem mapEntry_internal (s : State) (tag : Byte) (f : Entry → Entry) (h : ∀ e, (f e).tag = e.tag ∧ (f e).owed = e.owed) :
    Internal s (s.mapEntry tag f) :=
  { Internal.refl s with
    admission := rfl
    entries := by
      simp only [State.mapEntry, List.map_map]
      rw [show Entry.tag ∘ (fun e => if e.tag = tag then f e else e) = Entry.tag from
        funext fun e => by simp only [Function.comp]; split <;> simp [h]]
    results := by
      simp only [State.mapEntry, owedTotal, List.map_map]
      rw [show Entry.owed ∘ (fun e => if e.tag = tag then f e else e) = Entry.owed from
        funext fun e => by simp only [Function.comp]; split <;> simp [h]] }

theorem dropEntry_internal (s : State) (tag : Byte) : Internal s (s.dropEntry tag) :=
  { Internal.refl s with
    admission := rfl
    entries := List.filter_sublist.map _
    results := Nat.add_le_add_left (owedTotal_filter _ _) _ }

/-- A result produced moves one owed unit into the queue (R20). -/
theorem produce_internal (s : State) (r : Result) : Internal s (s.produce r) := by
  unfold State.produce
  split
  · exact Internal.refl _
  · rename_i e he
    split
    · exact Internal.refl _
    · rename_i hn
      refine Internal.trans ?_ (raiseFor_internal _ _ _)
      refine { Internal.refl s with admission := rfl, entries := ?_, results := ?_ }
      · simp only [takeUnit_tags]
        exact .refl _
      · have := takeUnit_owed he hn
        simp only [List.length_append, List.length_singleton]
        omega

theorem finish_internal (s : State) (r : Result) : Internal s (s.finish r) :=
  (produce_internal _ _).trans (dropEntry_internal _ _)

theorem finishRefused_internal (s : State) (t : Byte) (w : Reason) : Internal s (s.finishRefused t w) := finish_internal _ _

theorem finishFailed_internal (s : State) (t : Byte) (w : Reason) (d : Option DockId) :
    Internal s (s.finishFailed t w d) := finish_internal _ _

theorem removeClaim_internal (s : State) (t : Byte) (d : DockId) : Internal s (s.removeClaim t d) := by
  unfold State.removeClaim
  dsimp only
  refine Internal.trans ?_ (leaveGrantQueue_internal _ _)
  split
  · exact setDock_internal _ _ _
  · exact Internal.refl _

theorem dropReferral_internal (s : State) (p : Referral → Bool) :
    Internal s { s with refs := { s.refs with opened := s.refs.opened.filter p } } :=
  { Internal.refl s with link := rfl, lastIssued := rfl, opened := List.filter_sublist.map _ }

/-- Rollback removes what a presentation holds (R23). -/
theorem rollback_internal (s : State) (tag : Byte) : Internal s (s.rollback tag) := by
  unfold State.rollback
  split
  · exact Internal.refl _
  · rename_i e _
    have h2 := (addCredit_internal s e.creditCharged).trans (removeTentative_internal _ e.summary.serial tag)
    dsimp only
    refine Internal.trans ?_ (mapEntry_internal _ tag (fun x => { x with
      creditCharged := 0, slotReserved := false, dock := none, referral := none }) (fun _ => ⟨rfl, rfl⟩))
    have h3 : Internal s (if e.slotReserved then ((s.addCredit e.creditCharged).removeTentative e.summary.serial tag).releaseSlot
        else (s.addCredit e.creditCharged).removeTentative e.summary.serial tag) := by
      split
      · exact h2.trans (releaseSlot_internal _)
      · exact h2
    split
    · refine Internal.trans ?_ (dropReferral_internal _ _)
      split
      · exact h3.trans (removeClaim_internal _ _ _)
      · exact h3
    · split
      · exact h3.trans (removeClaim_internal _ _ _)
      · exact h3

/-! ## Release Controller (chapter 8) -/

/-- A claim changes the dock, the release and charge blocks (R130). -/
theorem claim_internal (s : State) (d : DockId) (o : Owner) (n : Option Nat) : Internal s (s.claim d o n) :=
  (((setDock_internal _ _ _).trans (setRel_internal _ _ _)).trans (chargeClaimed_chargeStep _ _).internal).trans
    (settle_queueStep _ _).internal

theorem failAttempt_internal (s : State) (o : Option Owner) (w : Reason) (d : DockId) (k : Option BikeKind) :
    Internal s (s.failAttempt o w d k) := by
  unfold State.failAttempt
  split
  · exact Internal.refl _
  · exact releaseSlot_internal _
  · rename_i t
    have h1 := mapEntry_internal s t (fun e => { e with dock := none }) (fun _ => ⟨rfl, rfl⟩)
    dsimp only
    split
    · exact h1
    · split
      · exact (h1.trans (claim_internal _ _ _ _)).trans (mapEntry_internal _ _ _ (fun _ => ⟨rfl, rfl⟩))
      · exact (h1.trans (rollback_internal _ _)).trans (finishFailed_internal _ _ _ _)

/-- A release completed (R138, R148). -/
theorem complete_internal (s : State) (d : DockId) (a b : Bool) : Internal s (s.complete d a b) := by
  unfold State.complete
  split
  · exact Internal.refl _
  · rename_i o _
    dsimp only
    have h1 := ((leaveStages_internal s d).trans (releaseSlot_internal _)).trans
      (writeRecord_internal _ (s.releaseRecord d o a b))
    split
    · exact (h1.trans (enterEmpty_internal _ _)).trans (chargeLeft_internal _ _)
    · rename_i t _
      refine Internal.trans ?_ (finish_internal _ _)
      refine Internal.trans (Internal.trans ?_ (enterEmpty_internal _ _)) (chargeLeft_internal _ _)
      split
      · exact (h1.trans (mapEntry_internal _ t (fun x => { x with slotReserved := false }) (fun _ => ⟨rfl, rfl⟩))).trans
          (finalise_internal _ _ _ _ _ _)
      · exact h1

theorem notTaken_internal (s : State) (o : Owner) (d : DockId) (b : Option Nat) : Internal s (s.notTaken o d b) := by
  unfold State.notTaken
  split
  · exact releaseSlot_internal _
  · exact (rollback_internal _ _).trans (finish_internal _ _)

theorem actOnNoted_internal (s : State) (d : DockId) (n : Option NotedFault) : Internal s (s.actOnNoted d n) := by
  unfold State.actOnNoted
  split
  · exact faultBy_internal _ _ _ _ _
  · exact Internal.refl _

/-- A relock that ends CLOSED (R140, R142). -/
theorem closeConfirmed_internal (s : State) (d : DockId) : Internal s (s.closeConfirmed d) := by
  unfold State.closeConfirmed
  dsimp only
  refine Internal.trans (Internal.trans ?_ (enterDocked_internal _ _)) (actOnNoted_internal _ _ _)
  have h2 := (leaveStages_internal s d).trans (setDock_internal (s.leaveStages d) d
    { (s.leaveStages d).dock d with state := .docked, owner := none, deadline := none })
  split
  · exact (h2.trans (notTaken_internal _ _ _ _)).trans (chargeLeft_internal _ _)
  · exact h2

/-- A relock that ends OPEN (R140, R142). -/
theorem jamOpen_internal (s : State) (d : DockId) : Internal s (s.jamOpen d) := by
  unfold State.jamOpen
  dsimp only
  have h1 := (leaveStages_internal s d).trans (enterFault_internal _ d .jamOpen)
  split
  · exact (h1.trans (notTaken_internal _ _ _ _)).trans (chargeLeft_internal _ _)
  · exact h1

theorem relockEnds_internal (s : State) (d : DockId) : Internal s (s.relockEnds d) := by
  unfold State.relockEnds
  split
  · exact jamOpen_internal _ _
  · exact closeConfirmed_internal _ _

theorem failStage_internal (s : State) (d : DockId) (w : Reason) (f : State → State) (h : ∀ x, Internal x (f x)) :
    Internal s (s.failStage d w f) :=
  (((leaveStages_internal _ _).trans (h _)).trans (chargeLeft_internal _ _)).trans (failAttempt_internal _ _ _ _ _)

theorem latchSeenOpen_internal (s : State) (d : DockId) : Internal s (s.latchSeenOpen d) := by
  unfold State.latchSeenOpen
  dsimp only
  split
  · have h1 := (leaveGrantQueue_internal s d).trans (endPulse_internal (s.leaveGrantQueue d) d)
    have h2 : Internal s (if (s.dock d).state = .unlatching then ((s.leaveGrantQueue d).endPulse d).withdraw d .latch
        else (s.leaveGrantQueue d).endPulse d) := by
      split
      · exact h1.trans (withdraw_internal _ _ _)
      · exact h1
    split
    · exact (h2.trans (setDock_internal _ _ _)).trans (produce_internal _ _)
    · exact h2.trans (setDock_internal _ _ _)
  · exact Internal.refl _

theorem contactFault_internal (s : State) (d : DockId) (c : FaultCause) (x : Contents) (n : Option Nat) :
    Internal s (s.contactFault d c x n) := by
  have hf : ∀ y : State, Internal y (y.faultBy d c x n) := fun y => faultBy_internal y d c x n
  unfold State.contactFault
  split
  · exact failStage_internal _ _ _ _ hf
  · exact failStage_internal _ _ _ _ hf
  · split
    · split
      · exact setRel_internal _ _ _
      · exact Internal.refl _
    · exact Internal.refl _
  · split
    · split
      · exact setRel_internal _ _ _
      · exact Internal.refl _
    · exact Internal.refl _
  · exact Internal.refl _

theorem removalConfirmed_internal (s : State) (d : DockId) : Internal s (s.removalConfirmed d) := by
  unfold State.removalConfirmed
  split
  · exact failStage_internal _ _ _ _ (fun x => (anomaly_internal _ _ _).trans (enterEmpty_internal _ _))
  · exact complete_internal _ _ _ _
  · exact complete_internal _ _ _ _
  · exact complete_internal _ _ _ _
  · exact (((leaveStages_internal _ _).trans (anomaly_internal _ _ _)).trans (enterEmpty_internal _ _)).trans
      (endContract_internal _ _)
  · exact Internal.refl _

theorem bikeConfirmed_internal (s : State) (d : DockId) (l : LatchPosition) : Internal s (s.bikeConfirmed d l) := by
  unfold State.bikeConfirmed
  split
  · exact closeConfirmed_internal _ _
  · exact Internal.refl _

theorem linkLost_internal (s : State) (d : DockId) : Internal s (s.linkLost d) := by
  unfold State.linkLost
  split
  · exact failStage_internal _ _ _ _ (fun x => setDock_internal _ _ _)
  · have h1 := ((leaveStages_internal s d).trans (unownedRelock_internal _ d)).trans (chargeLeft_internal _ d)
    dsimp only
    split
    · exact (h1.trans (rollback_internal _ _)).trans (finishFailed_internal _ _ _ _)
    · exact h1.trans (releaseSlot_internal _)
    · exact h1
  · exact (setRel_internal _ _ _).trans (setDock_internal _ _ _)
  · exact (setRel_internal _ _ _).trans (setDock_internal _ _ _)
  · exact setDock_internal _ _ _
  · exact Internal.refl _

theorem staleRegained_internal (s : State) (d : DockId) : Internal s (s.staleRegained d) := by
  unfold State.staleRegained
  split
  · exact (setRel_internal _ _ _).trans (startRelock_internal _ _)
  · exact Internal.refl _

/-! ## Judgement (chapters 6 and 7) -/

theorem takeReport_internal (s : State) (d : DockId) (r : Report) : Internal s (s.takeReport d r) := setDock_internal _ _ _

theorem clearCandidate_internal (s : State) (d : DockId) : Internal s (s.clearCandidate d) := setDock_internal _ _ _

theorem countReport_internal (s : State) (d : DockId) (c : Contents) (rule : Contents → State → State)
    (h : ∀ c x, Internal x (rule c x)) : Internal s (s.countReport d c rule) := by
  unfold State.countReport
  dsimp only
  split
  · exact (setDock_internal _ _ _).trans (h _ _)
  · exact setDock_internal _ _ _

theorem outOfUseReport_internal (s : State) (d : DockId) (r : Report) : Internal s (s.outOfUseReport d r) := by
  unfold State.outOfUseReport
  split
  · exact setDock_internal _ _ _
  · exact countReport_internal _ _ _ _ (fun c x => outOfUseConfirm_internal x d c r.soc)

theorem dockedReport_internal (s : State) (d : DockId) (r : Report) : Internal s (s.dockedReport d r) := by
  unfold State.dockedReport
  split
  · exact (enterFault_internal _ _ _).trans (outOfUseReport_internal _ _ _)
  · split
    · exact enterFault_internal _ _ _
    · exact countReport_internal _ _ _ _ (fun c x => dockedConfirm_internal x d c r.soc)

theorem emptyReport_internal (s : State) (d : DockId) (r : Report) : Internal s (s.emptyReport d r) := by
  unfold State.emptyReport
  split
  · exact enterFault_internal _ _ _
  · split
    · exact clearCandidate_internal _ _
    · exact (setDock_internal _ _ _).trans
        (countReport_internal _ _ _ _ (fun c x => arrive_internal x d c r.latch r.soc))

theorem stageConfirm_internal (s : State) (d : DockId) (c : Contents) (n : Option Nat) :
    Internal s (s.stageConfirm d c n) := by
  unfold State.stageConfirm
  split
  · exact removalConfirmed_internal _ _
  · split
    · exact contactFault_internal _ _ _ _ _
    · exact Internal.refl _

theorem stageReport_internal (s : State) (d : DockId) (r : Report) (w : Bool) : Internal s (s.stageReport d r w) := by
  unfold State.stageReport
  dsimp only
  have h1 : Internal s (if r.latch = .opened then s.latchSeenOpen d else s) := by
    split
    · exact latchSeenOpen_internal _ _
    · exact Internal.refl _
  generalize (if r.latch = .opened then s.latchSeenOpen d else s) = x at h1 ⊢
  have h2 : Internal x (if r.contents.code = .short then (x.clearCandidate d).contactFault d .short r.contents r.soc
      else x.countReport d r.contents (fun c x => x.stageConfirm d c r.soc)) := by
    split
    · exact (clearCandidate_internal _ _).trans (contactFault_internal _ _ _ _ _)
    · exact countReport_internal _ _ _ _ (fun c y => stageConfirm_internal y d c r.soc)
  generalize (if r.contents.code = .short then (x.clearCandidate d).contactFault d .short r.contents r.soc
      else x.countReport d r.contents (fun c x => x.stageConfirm d c r.soc)) = y at h2 ⊢
  split
  · exact (h1.trans h2).trans (bikeConfirmed_internal _ _ _)
  · exact h1.trans h2

/-- A judged report acts inside the part (R91, 6.3). -/
theorem judgedReport_internal (s : State) (d : DockId) (r : Report) (w : Bool) : Internal s (s.judgedReport d r w) := by
  have h0 := (takeReport_internal s d r).trans (fullEnds_queueStep _ d).internal
  unfold State.judgedReport
  dsimp only
  split
  · split
    · exact (h0.trans (setDock_internal _ _ _)).trans (enterFault_internal _ _ _)
    · exact h0.trans (countReport_internal _ _ _ _ (fun c x => learn_internal x d c r.latch r.soc))
  · exact h0.trans (emptyReport_internal _ _ _)
  · split
    · exact h0.trans (enterFault_internal _ _ _)
    · exact h0.trans (countReport_internal _ _ _ _ (fun c x => arrive_internal x d c r.latch r.soc))
  · exact h0.trans (dockedReport_internal _ _ _)
  · exact h0.trans (stageReport_internal _ _ _ _)
  · exact h0.trans (stageReport_internal _ _ _ _)
  · exact h0.trans (stageReport_internal _ _ _ _)
  · exact h0.trans (stageReport_internal _ _ _ _)
  · exact h0.trans (outOfUseReport_internal _ _ _)
  · exact h0.trans (outOfUseReport_internal _ _ _)

theorem linkBecameLost_internal (s : State) (d : DockId) : Internal s (s.linkBecameLost d) := by
  unfold State.linkBecameLost
  dsimp only
  refine Internal.trans ?_ (linkLost_internal _ _)
  split
  · exact (endContract_internal _ _).trans (moveHold_internal _ _)
  · exact endContract_internal _ _

theorem linkBecameLinked_internal (s : State) (d : DockId) : Internal s (s.linkBecameLinked d) := by
  unfold State.linkBecameLinked
  split
  · exact startRelock_internal _ _
  · exact openContract_internal _ _

theorem takeGoodReport_internal (s : State) (t : Transaction) (r : Report) (g : Bool) :
    Internal s (s.takeGoodReport t r g) := by
  unfold State.takeGoodReport
  dsimp only
  have h2 := ((setDock_internal s t.dock { s.dock t.dock with applied := r.applied }).trans
    (chargeReport_chargeStep _ t.dock r.applied (decide (t.command.cls ≠ some .charge) && !s.chargeBusy t.dock)).internal).trans
    (chargeMessage_queueStep _ t.dock r.message (decide (t.command = .caps))).internal
  split
  · refine Internal.trans ?_ (judgedReport_internal _ _ _ _)
    split
    · exact h2.trans (staleRegained_internal _ _)
    · exact h2
  · exact h2

end Sys2Proof.Machine
end

