-- ==== Sys2Proof/Laws/Arbiter.lean ====
section
/-! SUPPORT. What one grant of the arbiter, one judgement and a deadline reached can change, said once (R116, R120, R25). -/

namespace Sys2Proof.Machine

/-- A change of the line's queues, transaction and poll pointer alone; the queues keep at most one entry for a dock. -/
def LineStep (s t : State) : Prop :=
  t = { s with line := { s.line with latchQ := t.line.latchQ, chargeQ := t.line.chargeQ, txn := t.line.txn,
                                     ptr := t.line.ptr } }
    ∧ (s.commandsDistinct → t.commandsDistinct)

theorem LineStep.refl (s : State) : LineStep s s := ⟨rfl, id⟩

theorem LineStep.trans {s t u : State} (h : LineStep s t) (k : LineStep t u) : LineStep s u := by
  obtain ⟨h1, h2⟩ := h
  obtain ⟨k1, k2⟩ := k
  refine ⟨?_, k2 ∘ h2⟩
  rw [k1, h1]

theorem setQueue_lineStep (s : State) (k : CommandClass) (q : List LineEntry)
    (h : (docksOf (s.line.queue k)).Nodup → (docksOf q).Nodup) : LineStep s (s.setQueue k q) := by
  cases k
  · exact ⟨rfl, fun x => ⟨h x.1, x.2⟩⟩
  · exact ⟨rfl, fun x => ⟨x.1, h x.2⟩⟩

theorem startTransaction_lineStep (s : State) (d : DockId) (c : LineCommand) (n : Nat) :
    LineStep s (s.startTransaction d c n) := ⟨rfl, id⟩

/-- One grant changes the queues, the transaction and the poll pointer (R120, R121). -/
theorem lineGrant_lineStep (s : State) : LineStep s s.lineGrant := by
  unfold State.lineGrant
  split
  · rename_i e n rest hf
    exact (setQueue_lineStep s .latch rest (fun h => h.sublist (takeFree_sublist hf))).trans
      (startTransaction_lineStep _ _ _ _)
  · have h1 : LineStep s (s.setQueue .latch (s.line.latchQ.map LineEntry.passed)) :=
      setQueue_lineStep _ _ _ (by rw [passed_docks]; exact id)
    dsimp only
    split
    · rename_i e n rest hf
      exact (h1.trans (setQueue_lineStep _ .charge rest (fun h => h.sublist (takeFree_sublist hf)))).trans
        (startTransaction_lineStep _ _ _ _)
    · have h2 := h1.trans (setQueue_lineStep (s.setQueue .latch (s.line.latchQ.map LineEntry.passed)) .charge
        (s.line.chargeQ.map LineEntry.passed) (by rw [passed_docks]; exact id))
      split
      · refine (h2.trans ?_).trans (startTransaction_lineStep _ _ _ _)
        exact ⟨rfl, id⟩
      · split
        · rename_i e rest hq
          refine (h2.trans (setQueue_lineStep _ .latch rest ?_)).trans (startTransaction_lineStep _ _ _ _)
          intro h
          have hc : (docksOf (e :: rest)).Nodup := hq ▸ h
          exact (List.nodup_cons.1 hc).2
        · rename_i e rest _ hq
          refine (h2.trans (setQueue_lineStep _ .charge rest ?_)).trans (startTransaction_lineStep _ _ _ _)
          intro h
          have hc : (docksOf (e :: rest)).Nodup := hq ▸ h
          exact (List.nodup_cons.1 hc).2
        · exact h2

/-- A judgement (R116): the link count of the dock addressed, work inside the part, one grant of the arbiter, and the end of
the event. -/
theorem judge_cases (r : Option Report) (s : State) (t : Transaction) (ht : s.line.txn = some t) :
    ∃ u, Internal (({ s with line := { s.line with txn := none } }).setLink t.dock
        ((s.link t.dock).count s.cfg.params r.isSome)) u ∧ judge r s = closeEvent s u.lineGrant := by
  unfold judge
  rw [ht]
  dsimp only
  refine ⟨_, ?_, rfl⟩
  refine Internal.trans ?_ (offerIfDue_queueStep _ _).internal
  generalize ({ s with line := { s.line with txn := none } } : State).setLink t.dock
    ((s.link t.dock).count s.cfg.params r.isSome) = s1
  generalize decide ((s.link t.dock).state ≠ .lost ∧ ((s.link t.dock).count s.cfg.params r.isSome).state = .lost) = lost
  generalize decide ((s.link t.dock).state ≠ .linked
    ∧ ((s.link t.dock).count s.cfg.params r.isSome).state = .linked) = reg
  have h2 : Internal s1 (if lost = true then s1.dropCommands t.dock else s1.settleCommand t r.isSome) := by
    split
    · exact (dropCommands_queueStep _ _).internal
    · exact (settleCommand_queueStep _ _ _).internal
  generalize (if lost = true then s1.dropCommands t.dock else s1.settleCommand t r.isSome) = s2 at h2 ⊢
  cases r with
  | none =>
    dsimp only
    split
    · exact h2.trans (linkBecameLost_internal _ _)
    · split
      · exact h2.trans (linkBecameLinked_internal _ _)
      · exact h2
  | some x =>
    dsimp only
    have h3 := h2.trans (takeGoodReport_internal s2 t x reg)
    split
    · exact h3.trans (linkBecameLost_internal _ _)
    · split
      · exact h3.trans (linkBecameLinked_internal _ _)
      · exact h3

/-- A deadline reached moves the millisecond count within its second, and never beyond the count at which uptime holds
(R25; log entry 5). -/
theorem reached_some {s t : State} {x : Nat} (h : s.reached x = some t) :
    ∃ m, t = { s with clock := { s.clock with ms := m } } ∧ s.clock.ms ≤ m ∧ m / 1000 = s.uptime
      ∧ (s.clock.ms ≤ Config.maxMs → m ≤ Config.maxMs) := by
  unfold State.reached at h
  split at h
  · cases h
    exact ⟨s.clock.ms, rfl, Nat.le_refl _, rfl, id⟩
  · rename_i h1
    split at h
    · rename_i h2
      cases h
      have h3 : s.clock.ms < x := by omega
      have h4 : s.clock.ms < Config.maxMs := by omega
      refine ⟨x, rfl, Nat.le_of_lt h3, h2, fun _ => ?_⟩
      unfold State.uptime at h2
      generalize hm : Config.max32 = m at *
      have h5 : Config.maxMs = m * 1000 := by rw [← hm]; rfl
      omega
    · cases h

/-- A deadline already passed is reached as things stand (R25). -/
theorem reached_past {s : State} {x : Nat} (h : x ≤ s.clock.ms) : s.reached x = some s := by
  unfold State.reached
  rw [if_pos (.inl h)]

end Sys2Proof.Machine
end

