-- ==== Sys2Proof/Laws/Faults.lean ====
section
/-! SUPPORT. The cause that the model reads from contents is the one that the rules name (R97, R99, R100). -/

namespace Sys2Proof.Machine

theorem contactFault?_iff (b : Bike) (c : Contents) (cause : FaultCause) :
    contactFault? b c = some cause ↔ ContactFault (some b) c cause := by
  obtain ⟨code, tag⟩ := c
  obtain ⟨kind, number, _, _, _⟩ := b
  unfold contactFault? ContactFault
  cases code <;> cases tag <;> cases number <;> cases kind <;> simp [ContactCode.bikeKind, eq_comm]

/-- A steady report shows no contact fault. -/
theorem steady_shows_none {k : Dock} {p : Params} {c : Contents} (h : k.steady c ∧ c.code ≠ .short) :
    ∀ cause, ¬ k.faultShown p c cause := by
  rintro cause ⟨hf, rfl | hc⟩
  · rcases hf with ⟨hs, -⟩ | ⟨b, -, ⟨-, -, -, e⟩ | ⟨-, -, e⟩ | ⟨m, n, -, -, -, -, e⟩⟩
    · exact h.2 hs
    all_goals cases e
  · exact hc.2.1 h.1

end Sys2Proof.Machine
end

