-- ==== Sys2Proof/Laws/Memory.lean ====
section
/-! SUPPORT. The serial memory: reading after writing, and every operation keeps the canonical form. -/

namespace Sys2Proof.Machine

theorem memWfFrom_weaken {lo lo' : Nat} {m : List Host.Cell} (h : lo' ≤ lo) (hm : memWfFrom lo m = true) :
    memWfFrom lo' m = true := by
  cases m with
  | nil => rfl
  | cons c m =>
    simp only [memWfFrom, Bool.and_eq_true, decide_eq_true_eq] at hm ⊢
    exact ⟨⟨Nat.le_trans h hm.1.1, hm.1.2⟩, hm.2⟩

/-- A byte written at or above a bound keeps the canonical form from that bound upward. -/
theorem memWrite_wfFrom {lo a : Nat} {m : List Host.Cell} (b : Byte) (ha : lo ≤ a) (hm : memWfFrom lo m = true) :
    memWfFrom lo (memWrite m a b) = true := by
  induction m generalizing lo with
  | nil =>
    unfold memWrite
    split
    · rfl
    · rename_i hb
      simp [memWfFrom, ha, hb]
  | cons c m ih =>
    have hm' := hm
    simp only [memWfFrom, Bool.and_eq_true, decide_eq_true_eq] at hm
    unfold memWrite
    split
    · rename_i hlt
      split
      · exact hm'
      · rename_i hb
        simp only [memWfFrom, Bool.and_eq_true, decide_eq_true_eq]
        exact ⟨⟨ha, hb⟩, ⟨hlt, hm.1.2⟩, hm.2⟩
    · split
      · rename_i heq
        split
        · exact memWfFrom_weaken (Nat.le_succ_of_le hm.1.1) hm.2
        · rename_i hb
          simp only [memWfFrom, Bool.and_eq_true, decide_eq_true_eq]
          exact ⟨⟨ha, hb⟩, heq ▸ hm.2⟩
      · rename_i h1 h2
        simp only [memWfFrom, Bool.and_eq_true, decide_eq_true_eq]
        exact ⟨hm.1, ih (by omega) hm.2⟩

theorem memWrite_wf {m : List Host.Cell} (a : Nat) (b : Byte) (hm : Memory.wf m = true) :
    Memory.wf (memWrite m a b) = true := memWrite_wfFrom b (Nat.zero_le a) hm

/-- Writing bytes keeps the canonical form. -/
theorem memWriteBytes_wf {m : List Host.Cell} (a : Nat) (bs : List Byte) (hm : Memory.wf m = true) :
    Memory.wf (memWriteBytes m a bs) = true := by
  induction bs generalizing m a with
  | nil => exact hm
  | cons b bs ih => exact ih (a + 1) (memWrite_wf a b hm)

theorem reset_memory_wf : Memory.wf State.reset.cfg.serial = true := rfl

/-- An address below the form's bound reads blank. -/
theorem memRead_below {lo a : Nat} {m : List Host.Cell} (hm : memWfFrom lo m = true) (ha : a < lo) :
    memRead m a = memBlank := by
  induction m generalizing lo with
  | nil => rfl
  | cons c m ih =>
    simp only [memWfFrom, Bool.and_eq_true, decide_eq_true_eq] at hm
    unfold memRead
    rw [if_neg (by omega)]
    exact ih hm.2 (by omega)

/-- Reading after a byte is written: that byte at its address, what was there elsewhere. -/
theorem memRead_memWrite {lo : Nat} {m : List Host.Cell} (a : Nat) (b : Byte) (x : Nat) (hm : memWfFrom lo m = true) :
    memRead (memWrite m a b) x = if x = a then b else memRead m x := by
  induction m generalizing lo with
  | nil =>
    unfold memWrite
    split
    · rename_i hb
      split
      · exact hb.symm
      · rfl
    · by_cases hx : a = x
      · simp [memRead, hx]
      · rw [if_neg (Ne.symm hx)]
        simp [memRead, hx]
  | cons c m ih =>
    simp only [memWfFrom, Bool.and_eq_true, decide_eq_true_eq] at hm
    unfold memWrite
    split
    · rename_i hlt
      split
      · rename_i hb
        by_cases hx : x = a
        · subst hx
          rw [if_pos rfl, hb]
          unfold memRead
          rw [if_neg (by omega)]
          exact memRead_below hm.2 (by omega)
        · rw [if_neg hx]
      · by_cases hx : a = x
        · simp [memRead, hx]
        · rw [if_neg (Ne.symm hx)]
          simp [memRead, hx]
    · split
      · rename_i heq
        split
        · rename_i hb
          by_cases hx : x = a
          · subst hx
            rw [if_pos rfl, hb]
            exact memRead_below hm.2 (by omega)
          · rw [if_neg hx]
            conv_rhs => unfold memRead
            rw [if_neg (by omega)]
        · by_cases hx : a = x
          · simp [memRead, hx]
          · rw [if_neg (Ne.symm hx)]
            conv_rhs => unfold memRead
            rw [if_neg (by omega)]
            simp [memRead, hx]
      · rename_i h1 h2
        by_cases hx : c.1 = x
        · rw [if_neg (by omega)]
          simp [memRead, hx]
        · simp only [memRead, hx, if_false]
          exact ih hm.2

end Sys2Proof.Machine
end

