-- ==== Sys2Proof/WellFormed.lean ====
section
/-! DEFINITION. Which commands the wires can carry: operand lists of the lengths that the frames have (chapter 12). -/

namespace Sys2Proof.Instr

/-- A command whose operands fit the wires: a payload fits the 16-bit length field (12.2), the bytes of an answer are 1 to the 14
of a dock report (12.6), what is read back and what had been written are within the 132 bytes of the image (12.7). -/
def wellFormed : Instr → Bool
  | .requestFrameEnd _ payload => decide (payload.length < 65536)
  | .dockReportReceived bytes => decide (1 ≤ bytes.length ∧ bytes.length ≤ Config.reportLength)
  | .storeConfigurationEnd readBack => decide (readBack.length = Config.imageLength)
  | .coldReset written => decide (written ≤ Config.imageLength)
  | _ => true

end Sys2Proof.Instr
end

