-- ==== Sys2Proof/Laws/PerInstr.lean ====
section
/-! SUPPORT. A statement about every command as syntax, one lemma per constructor: what a command carries as bytes fits the
16-bit length field of a frame (12.2). -/

namespace Sys2Proof.Laws.WireSized

/-- How many bytes of operand a command carries. -/
def operandLength : Instr → Nat
  | .portTransactionStart _ first => first.toList.length
  | .requestFrameEnd _ payload => payload.length
  | .storeConfigurationEnd readBack => readBack.length
  | .coldReset written => written
  | .dockReportReceived bytes => bytes.length
  | _ => 0

/-- A well-formed command carries at most 65,535 bytes. -/
def Statement (i : Instr) : Prop := i.wellFormed = true → operandLength i ≤ 65535

theorem portTransactionStart (p : PortId) (first : Option Byte) :
    Statement (.portTransactionStart p first) := fun _ => by cases first <;> simp [operandLength]

theorem requestFrameEnd (p : PortId) (payload : List Byte) :
    Statement (.requestFrameEnd p payload) := fun h => Nat.le_of_lt_succ (of_decide_eq_true h)

theorem frameShort (p : PortId) :
    Statement (.frameShort p) := fun _ => Nat.zero_le _

theorem unknownRequest (p : PortId) :
    Statement (.unknownRequest p) := fun _ => Nat.zero_le _

theorem noOperation (p : PortId) :
    Statement (.noOperation p) := fun _ => Nat.zero_le _

theorem readPortStatus (p : PortId) :
    Statement (.readPortStatus p) := fun _ => Nat.zero_le _

theorem readStationStatus (p : PortId) :
    Statement (.readStationStatus p) := fun _ => Nat.zero_le _

theorem setEventMask (p : PortId) :
    Statement (.setEventMask p) := fun _ => Nat.zero_le _

theorem readEvent (p : PortId) :
    Statement (.readEvent p) := fun _ => Nat.zero_le _

theorem clearEvents (p : PortId) :
    Statement (.clearEvents p) := fun _ => Nat.zero_le _

theorem presentToken (p : PortId) :
    Statement (.presentToken p) := fun _ => Nat.zero_le _

theorem readResult (p : PortId) :
    Statement (.readResult p) := fun _ => Nat.zero_le _

theorem admissionStart :
    Statement (.admissionStart) := fun _ => Nat.zero_le _

theorem admissionComplete :
    Statement (.admissionComplete) := fun _ => Nat.zero_le _

theorem setTime (p : PortId) :
    Statement (.setTime p) := fun _ => Nat.zero_le _

theorem secondBoundary :
    Statement (.secondBoundary) := fun _ => Nat.zero_le _

theorem syncLapse :
    Statement (.syncLapse) := fun _ => Nat.zero_le _

theorem usedTokenExpiry :
    Statement (.usedTokenExpiry) := fun _ => Nat.zero_le _

theorem creditRefill :
    Statement (.creditRefill) := fun _ => Nat.zero_le _

theorem loadKey (p : PortId) :
    Statement (.loadKey p) := fun _ => Nat.zero_le _

theorem promoteKey (p : PortId) :
    Statement (.promoteKey p) := fun _ => Nat.zero_le _

theorem beginRevocationLoad (p : PortId) :
    Statement (.beginRevocationLoad p) := fun _ => Nat.zero_le _

theorem addRevocationRanges (p : PortId) :
    Statement (.addRevocationRanges p) := fun _ => Nat.zero_le _

theorem commitRevocationLoad (p : PortId) :
    Statement (.commitRevocationLoad p) := fun _ => Nat.zero_le _

theorem revocationReplacementStart :
    Statement (.revocationReplacementStart) := fun _ => Nat.zero_le _

theorem revocationReplacementEnd :
    Statement (.revocationReplacementEnd) := fun _ => Nat.zero_le _

theorem abandonRevocationLoad (p : PortId) :
    Statement (.abandonRevocationLoad p) := fun _ => Nat.zero_le _

theorem revokeSerial (p : PortId) :
    Statement (.revokeSerial p) := fun _ => Nat.zero_le _

theorem revokeSerialInsertion :
    Statement (.revokeSerialInsertion) := fun _ => Nat.zero_le _

theorem readUsedToken (p : PortId) :
    Statement (.readUsedToken p) := fun _ => Nat.zero_le _

theorem nextReferral (p : PortId) :
    Statement (.nextReferral p) := fun _ => Nat.zero_le _

theorem readReferral (p : PortId) :
    Statement (.readReferral p) := fun _ => Nat.zero_le _

theorem answerReferral (p : PortId) :
    Statement (.answerReferral p) := fun _ => Nat.zero_le _

theorem referralDeadline (id : Byte) :
    Statement (.referralDeadline id) := fun _ => Nat.zero_le _

theorem setLinkState (p : PortId) :
    Statement (.setLinkState p) := fun _ => Nat.zero_le _

theorem placeReservation (p : PortId) :
    Statement (.placeReservation p) := fun _ => Nat.zero_le _

theorem cancelReservation (p : PortId) :
    Statement (.cancelReservation p) := fun _ => Nat.zero_le _

theorem readReservations (p : PortId) :
    Statement (.readReservations p) := fun _ => Nat.zero_le _

theorem reservationExpiry :
    Statement (.reservationExpiry) := fun _ => Nat.zero_le _

theorem clearFault (p : PortId) :
    Statement (.clearFault p) := fun _ => Nat.zero_le _

theorem setDockService (p : PortId) :
    Statement (.setDockService p) := fun _ => Nat.zero_le _

theorem readDock (p : PortId) :
    Statement (.readDock p) := fun _ => Nat.zero_le _

theorem readDockSummary (p : PortId) :
    Statement (.readDockSummary p) := fun _ => Nat.zero_le _

theorem readLineStatus (p : PortId) :
    Statement (.readLineStatus p) := fun _ => Nat.zero_le _

theorem serviceRelease (p : PortId) :
    Statement (.serviceRelease p) := fun _ => Nat.zero_le _

theorem readCharge (p : PortId) :
    Statement (.readCharge p) := fun _ => Nat.zero_le _

theorem readRecords (p : PortId) :
    Statement (.readRecords p) := fun _ => Nat.zero_le _

theorem acknowledgeRecords (p : PortId) :
    Statement (.acknowledgeRecords p) := fun _ => Nat.zero_le _

theorem setParameter (p : PortId) :
    Statement (.setParameter p) := fun _ => Nat.zero_le _

theorem readParameter (p : PortId) :
    Statement (.readParameter p) := fun _ => Nat.zero_le _

theorem storeConfiguration (p : PortId) :
    Statement (.storeConfiguration p) := fun _ => Nat.zero_le _

theorem storeConfigurationEnd (readBack : List Byte) :
    Statement (.storeConfigurationEnd readBack) := fun h =>
  Nat.le_trans (Nat.le_of_eq (of_decide_eq_true h)) (by decide)

theorem restartStation (p : PortId) :
    Statement (.restartStation p) := fun _ => Nat.zero_le _

theorem coldReset (written : Nat) :
    Statement (.coldReset written) := fun h =>
  Nat.le_trans (of_decide_eq_true h) (by decide)

theorem configurationLoadEnd (answers : Bool) :
    Statement (.configurationLoadEnd answers) := fun _ => Nat.zero_le _

theorem commandFrameSent :
    Statement (.commandFrameSent) := fun _ => Nat.zero_le _

theorem dockReportReceived (bytes : List Byte) :
    Statement (.dockReportReceived bytes) := fun h =>
  Nat.le_trans (of_decide_eq_true h |>.2) (by decide)

theorem answerWindowClose :
    Statement (.answerWindowClose) := fun _ => Nat.zero_le _

theorem answerByteTimeout (lastByte : Nat) :
    Statement (.answerByteTimeout lastByte) := fun _ => Nat.zero_le _

theorem latchGrant :
    Statement (.latchGrant) := fun _ => Nat.zero_le _

theorem claimDeadline (d : DockId) :
    Statement (.claimDeadline d) := fun _ => Nat.zero_le _

theorem confirmDeadline (d : DockId) :
    Statement (.confirmDeadline d) := fun _ => Nat.zero_le _

theorem pickupDeadline (d : DockId) :
    Statement (.pickupDeadline d) := fun _ => Nat.zero_le _

theorem relockDeadline (d : DockId) :
    Statement (.relockDeadline d) := fun _ => Nat.zero_le _

theorem unownedRelockDeadline (d : DockId) :
    Statement (.unownedRelockDeadline d) := fun _ => Nat.zero_le _

theorem staleDeadline (d : DockId) :
    Statement (.staleDeadline d) := fun _ => Nat.zero_le _

theorem chargeOffer (d : DockId) :
    Statement (.chargeOffer d) := fun _ => Nat.zero_le _

theorem chargeAnswerDeadline (d : DockId) :
    Statement (.chargeAnswerDeadline d) := fun _ => Nat.zero_le _

theorem bytesAfterStatedLength (p : PortId) :
    Statement (.bytesAfterStatedLength p) := fun _ => Nat.zero_le _

end Sys2Proof.Laws.WireSized
end

