-- ==== Sys2Proof/Laws/Ranges.lean ====
section
/-! SUPPORT. Lists of ranges: the form of R46 over an append, the ranges that Add Revocation Ranges appends (R49), and the
insertion of one serial (R52). -/

namespace Sys2Proof.Machine

/-- Where the next range of a list that begins at `lo` may begin. -/
def endOf (lo : Nat) : List SerialRange → Nat
  | [] => lo
  | r :: rs => endOf (r.high + 2) rs

theorem endOf_append {lo : Nat} {a b : List SerialRange} : endOf lo (a ++ b) = endOf (endOf lo a) b := by
  induction a generalizing lo with
  | nil => rfl
  | cons r rs ih => simp only [List.cons_append, endOf, ih]

theorem rangesFrom_append {lo : Nat} {a b : List SerialRange} :
    rangesFrom lo (a ++ b) = (rangesFrom lo a && rangesFrom (endOf lo a) b) := by
  induction a generalizing lo with
  | nil => simp [rangesFrom, endOf]
  | cons r rs ih => simp only [List.cons_append, rangesFrom, endOf, ih, Bool.and_assoc]

theorem rangesFrom_weaken {lo lo' : Nat} {rs : List SerialRange} (h : lo' ≤ lo) (hr : rangesFrom lo rs = true) :
    rangesFrom lo' rs = true := by
  cases rs with
  | nil => rfl
  | cons r rs =>
    simp only [rangesFrom, Bool.and_eq_true, decide_eq_true_eq] at hr ⊢
    exact ⟨⟨by omega, hr.1.2⟩, hr.2⟩

theorem endOf_getLast {lo : Nat} {a : List SerialRange} :
    endOf lo a = match a.getLast? with
      | none => lo
      | some r => r.high + 2 := by
  induction a generalizing lo with
  | nil => rfl
  | cons r rs ih =>
    simp only [endOf, ih]
    cases rs with
    | nil => rfl
    | cons x xs =>
      cases h : (x :: xs).getLast? with
      | none => simp at h
      | some y => rw [List.getLast?_cons_cons, h]

/-- The ranges carried are appended exactly when the list then has the form of R46 and fits its announced count (R49). -/
theorem addRanges_cases (n : Nat) (rs held : List SerialRange) (h : rangesFrom 0 held = true) (hl : held.length ≤ n) :
    (rangesFrom 0 (held ++ rs) = true ∧ (held ++ rs).length ≤ n → addRanges n held rs = .ok (held ++ rs))
      ∧ (¬ (rangesFrom 0 (held ++ rs) = true ∧ (held ++ rs).length ≤ n) →
          addRanges n held rs = .error .order ∨ addRanges n held rs = .error .count) := by
  induction rs generalizing held with
  | nil => simp [addRanges, h, hl]
  | cons r rs ih =>
    have hc : (r.high < r.low ∨ (held.getLast?.any (fun l => decide (r.low ≤ l.high + 1))) = true)
        ↔ rangesFrom 0 (held ++ [r]) = false := by
      rw [rangesFrom_append, h, endOf_getLast]
      cases held.getLast? with
      | none => simp [rangesFrom]
      | some y =>
        simp [rangesFrom]
        omega
    have ha : held ++ r :: rs = (held ++ [r]) ++ rs := by simp
    unfold addRanges
    by_cases h1 : rangesFrom 0 (held ++ [r]) = false
    · rw [if_pos (hc.2 h1)]
      refine ⟨fun x => ?_, fun _ => .inl rfl⟩
      have hx := x.1
      rw [ha, rangesFrom_append, h1] at hx
      cases hx
    · rw [if_neg (fun x => h1 (hc.1 x))]
      by_cases h2 : n ≤ held.length
      · rw [if_pos h2]
        refine ⟨fun x => ?_, fun _ => .inr rfl⟩
        have hx := x.2
        simp at hx
        omega
      · rw [if_neg h2, ha]
        exact ih (held ++ [r]) (by simpa using h1) (by simp; omega)

/-- A serial in a list is at least the list's bound. -/
theorem revoked_ge {lo x : Nat} {rs : List SerialRange} (h : rangesFrom lo rs = true) (hx : revoked rs x = true) :
    lo ≤ x := by
  induction rs generalizing lo with
  | nil => cases hx
  | cons r rs ih =>
    simp only [rangesFrom, Bool.and_eq_true, decide_eq_true_eq] at h
    simp only [revoked, List.any_cons, Bool.or_eq_true, SerialRange.covers, decide_eq_true_eq] at hx
    rcases hx with hx | hx
    · omega
    · have := ih h.2 hx
      omega

theorem rangesBelow_none {lo n : Nat} {rs : List SerialRange} (h : rangesFrom lo rs = true) (hn : n ≤ lo) :
    rangesBelow rs n = [] := by
  induction rs generalizing lo with
  | nil => rfl
  | cons r rs ih =>
    simp only [rangesFrom, Bool.and_eq_true, decide_eq_true_eq] at h
    simp only [rangesBelow, List.filter_cons]
    rw [if_neg (by simp; omega)]
    exact ih h.2 (by omega)

/-- A list that does not cover a serial is the ranges below it followed by those above it. -/
theorem below_above {lo n : Nat} {rs : List SerialRange} (h : rangesFrom lo rs = true) (hn : revoked rs n = false) :
    rangesBelow rs n ++ rangesAbove rs n = rs := by
  induction rs generalizing lo with
  | nil => rfl
  | cons r rs ih =>
    simp only [rangesFrom, Bool.and_eq_true, decide_eq_true_eq] at h
    simp only [revoked, List.any_cons, Bool.or_eq_false_iff, SerialRange.covers, decide_eq_false_iff_not, not_and,
      Nat.not_le] at hn
    by_cases h1 : r.high < n
    · have ha : rangesAbove (r :: rs) n = rangesAbove rs n := by
        simp only [rangesAbove, List.filter_cons]
        rw [if_neg (by simp; omega)]
      have hb : rangesBelow (r :: rs) n = r :: rangesBelow rs n := by
        simp only [rangesBelow, List.filter_cons]
        rw [if_pos (by simpa using h1)]
      rw [ha, hb, List.cons_append, ih h.2 hn.2]
    · have h2 : n < r.low := by
        by_contra hc
        exact h1 (hn.1 (by omega))
      have hb : rangesBelow (r :: rs) n = [] := by
        simp only [rangesBelow, List.filter_cons]
        rw [if_neg (by simp; omega)]
        exact rangesBelow_none h.2 (by omega)
      have hbr : rangesBelow rs n = [] := rangesBelow_none h.2 (by omega)
      have hr := ih h.2 hn.2
      rw [hbr, List.nil_append] at hr
      have ha : rangesAbove (r :: rs) n = r :: rangesAbove rs n := by
        simp only [rangesAbove, List.filter_cons]
        rw [if_pos (by simpa using h2)]
      rw [hb, ha, List.nil_append, hr]

theorem revoked_append (a b : List SerialRange) (x : Nat) : revoked (a ++ b) x = (revoked a x || revoked b x) := by
  simp [revoked, List.any_append]

theorem revoked_cons (r : SerialRange) (b : List SerialRange) (x : Nat) :
    revoked (r :: b) x = (r.covers x || revoked b x) := by
  simp [revoked]

/-- What an insertion leaves: a list of the form of R46 that covers what the old one covered and the serial, at most one range
longer (R52). -/
structure InsertedInto (active rs : List SerialRange) (serial : Nat) : Prop where
  fresh : revoked active serial = false
  form : rangesFrom 0 rs = true
  covers : ∀ x, revoked rs x = (revoked active x || decide (x = serial))
  length : rs.length ≤ active.length ∨ (rs.length = active.length + 1 ∧ active.length < Config.maxRanges)

theorem mem_low {lo : Nat} {rs : List SerialRange} (h : rangesFrom lo rs = true) {r : SerialRange} (hr : r ∈ rs) :
    lo ≤ r.low ∧ r.low ≤ r.high := by
  induction rs generalizing lo with
  | nil => cases hr
  | cons z zs ih =>
    simp only [rangesFrom, Bool.and_eq_true, decide_eq_true_eq] at h
    rcases List.mem_cons.1 hr with rfl | hr
    · exact h.1
    · have := ih h.2 hr
      exact ⟨by omega, this.2⟩

theorem endOf_ge {lo : Nat} {rs : List SerialRange} (h : rangesFrom lo rs = true) : lo ≤ endOf lo rs := by
  induction rs generalizing lo with
  | nil => exact Nat.le_refl _
  | cons z zs ih =>
    simp only [rangesFrom, Bool.and_eq_true, decide_eq_true_eq] at h
    have := ih h.2
    simp only [endOf]
    omega

theorem mem_high {lo : Nat} {rs : List SerialRange} (h : rangesFrom lo rs = true) {r : SerialRange} (hr : r ∈ rs) :
    r.high + 2 ≤ endOf lo rs := by
  induction rs generalizing lo with
  | nil => cases hr
  | cons z zs ih =>
    simp only [rangesFrom, Bool.and_eq_true, decide_eq_true_eq] at h
    simp only [endOf]
    rcases List.mem_cons.1 hr with rfl | hr
    · exact endOf_ge h.2
    · exact ih h.2 hr

theorem revoked_nil (x : Nat) : revoked [] x = false := rfl

/-- Every case of the insertion (R52). -/
theorem insertSerial_cases {active : List SerialRange} (serial : Nat) (h : rangesFrom 0 active = true) :
    (insertSerial active serial = .covered ∧ revoked active serial = true)
      ∨ (∃ rs, insertSerial active serial = .changed rs ∧ InsertedInto active rs serial)
      ∨ (insertSerial active serial = .full ∧ Config.maxRanges ≤ active.length ∧ revoked active serial = false
          ∧ ∀ r ∈ active, r.high + 1 ≠ serial ∧ serial + 1 ≠ r.low) := by
  cases hc : revoked active serial with
  | true =>
    refine .inl ⟨?_, rfl⟩
    unfold insertSerial
    rw [if_pos hc]
  | false =>
    refine .inr ?_
    have hba := below_above h hc
    have hbelow : ∀ r ∈ rangesBelow active serial, r.high < serial := fun r hr => by
      simpa using (List.mem_filter.1 hr).2
    have habove : ∀ r ∈ rangesAbove active serial, serial < r.low := fun r hr => by
      simpa using (List.mem_filter.1 hr).2
    unfold insertSerial
    rw [if_neg (by simp [hc])]
    dsimp only
    generalize rangesBelow active serial = below at *
    generalize rangesAbove active serial = above at *
    subst hba
    rcases List.eq_nil_or_concat below with rfl | ⟨init, b, hb⟩
    · cases above with
      | nil =>
        refine .inl ⟨[⟨serial, serial⟩], rfl, ⟨rfl, by simp [rangesFrom], ?_, .inr ⟨rfl, by decide⟩⟩⟩
        intro x
        rw [Bool.eq_iff_iff]
        simp [revoked_cons, revoked_nil, SerialRange.covers]
        omega
      | cons a as =>
        have ha := habove a (by simp)
        simp only [List.nil_append, List.getLast?_nil, List.head?_cons, List.tail_cons] at h hc ⊢
        have hA := h
        simp only [rangesFrom, Bool.and_eq_true, decide_eq_true_eq] at hA
        split
        · refine .inl ⟨_, rfl, ⟨hc, ?_, ?_, .inl (Nat.le_refl _)⟩⟩
          · simp only [rangesFrom, Bool.and_eq_true, decide_eq_true_eq]
            exact ⟨⟨by omega, by omega⟩, hA.2⟩
          · intro x
            rw [Bool.eq_iff_iff]
            cases hs : revoked as x <;> simp [revoked_cons, SerialRange.covers, hs] <;> omega
        · rename_i h1
          split
          · rename_i h2
            refine .inl ⟨_, rfl, ⟨hc, ?_, ?_, .inr ⟨rfl, h2⟩⟩⟩
            · simp only [rangesFrom, Bool.and_eq_true, decide_eq_true_eq]
              exact ⟨⟨by omega, by omega⟩, ⟨by omega, hA.1.2⟩, hA.2⟩
            · intro x
              rw [Bool.eq_iff_iff]
              cases hs : revoked as x <;> simp [revoked_cons, SerialRange.covers, hs] <;> omega
          · rename_i h2
            refine .inr ⟨rfl, Nat.le_of_not_lt h2, by trivial, fun r hr => ?_⟩
            have h3 := habove r hr
            have h4 := (mem_low h hr).2
            refine ⟨by omega, ?_⟩
            rcases List.mem_cons.1 hr with rfl | hr
            · exact h1
            · have := (mem_low hA.2 hr).1
              omega
    · rw [List.concat_eq_append] at hb
      subst hb
      have hb := hbelow b (by simp)
      have hAll := h
      rw [rangesFrom_append, rangesFrom_append, endOf_append] at h
      simp only [rangesFrom, endOf, Bool.and_true, Bool.and_eq_true, decide_eq_true_eq] at h
      obtain ⟨⟨hI, hb2⟩, hA⟩ := h
      have hinit : ∀ r ∈ init, r.high + 1 ≠ serial ∧ serial + 1 ≠ r.low := fun r hr => by
        have h1 := mem_high hI hr
        have h2 := (mem_low hI hr).2
        omega
      rw [show (init ++ [b]).getLast? = some b by simp, show (init ++ [b]).dropLast = init by simp]
      cases above with
      | nil =>
        simp only [List.append_nil] at hc ⊢
        dsimp only [List.head?_nil]
        split
        · refine .inl ⟨_, rfl, ⟨hc, ?_, ?_, .inl (by simp)⟩⟩
          · rw [rangesFrom_append, hI]
            simp [rangesFrom]
            omega
          · intro x
            rw [Bool.eq_iff_iff]
            cases hi : revoked init x <;> simp [revoked_append, revoked_cons, revoked_nil, SerialRange.covers, hi] <;> omega
        · rename_i h1
          split
          · rename_i h2
            refine .inl ⟨_, rfl, ⟨hc, ?_, ?_, .inr ⟨by simp, h2⟩⟩⟩
            · rw [rangesFrom_append, rangesFrom_append, hI, endOf_append]
              simp [rangesFrom, endOf]
              exact ⟨hb2, decide_eq_true (by omega)⟩
            · intro x
              rw [Bool.eq_iff_iff]
              cases hi : revoked init x <;>
                simp [revoked_append, revoked_cons, revoked_nil, SerialRange.covers, hi] <;> omega
          · rename_i h2
            refine .inr ⟨rfl, Nat.le_of_not_lt h2, by trivial, fun r hr => ?_⟩
            rcases List.mem_append.1 hr with hr | hr
            · exact hinit r hr
            · rw [List.mem_singleton.1 hr]
              exact ⟨h1, by omega⟩
      | cons a as =>
        have ha := habove a (by simp)
        have hA' := hA
        simp only [rangesFrom, Bool.and_eq_true, decide_eq_true_eq] at hA
        simp only [List.head?_cons, List.tail_cons]
        split
        · refine .inl ⟨_, rfl, ⟨hc, ?_, ?_, .inl (by simp)⟩⟩
          · rw [rangesFrom_append, hI]
            simp only [rangesFrom, Bool.true_and, Bool.and_eq_true, decide_eq_true_eq]
            exact ⟨⟨by omega, by omega⟩, hA.2⟩
          · intro x
            rw [Bool.eq_iff_iff]
            cases hi : revoked init x <;> cases hs : revoked as x <;>
              simp [revoked_append, revoked_cons, SerialRange.covers, hi, hs] <;> omega
        · rename_i h1
          split
          · refine .inl ⟨_, rfl, ⟨hc, ?_, ?_, .inl (by simp)⟩⟩
            · rw [rangesFrom_append, hI]
              simp only [rangesFrom, Bool.true_and, Bool.and_eq_true, decide_eq_true_eq]
              exact ⟨⟨by omega, by omega⟩, ⟨by omega, hA.1.2⟩, hA.2⟩
            · intro x
              rw [Bool.eq_iff_iff]
              cases hi : revoked init x <;> cases hs : revoked as x <;>
                simp [revoked_append, revoked_cons, SerialRange.covers, hi, hs] <;> omega
          · rename_i h2
            split
            · refine .inl ⟨_, rfl, ⟨hc, ?_, ?_, .inl (by simp)⟩⟩
              · rw [rangesFrom_append, rangesFrom_append, hI, endOf_append]
                simp only [rangesFrom, endOf, Bool.true_and, Bool.and_true, Bool.and_eq_true, decide_eq_true_eq]
                exact ⟨hb2, ⟨decide_eq_true (by omega), by omega⟩, hA.2⟩
              · intro x
                rw [Bool.eq_iff_iff]
                cases hi : revoked init x <;> cases hs : revoked as x <;>
                  simp [revoked_append, revoked_cons, SerialRange.covers, hi, hs] <;> omega
            · rename_i h3
              split
              · rename_i h4
                refine .inl ⟨_, rfl, ⟨hc, ?_, ?_, .inr ⟨by simp; omega, h4⟩⟩⟩
                · rw [rangesFrom_append, rangesFrom_append, hI, endOf_append]
                  simp only [rangesFrom, endOf, Bool.true_and, Bool.and_true, Bool.and_eq_true, decide_eq_true_eq]
                  exact ⟨hb2, ⟨decide_eq_true (by omega), by omega⟩, ⟨by omega, hA.1.2⟩, hA.2⟩
                · intro x
                  rw [Bool.eq_iff_iff]
                  cases hi : revoked init x <;> cases hs : revoked as x <;>
                    simp [revoked_append, revoked_cons, SerialRange.covers, hi, hs] <;> omega
              · rename_i h4
                refine .inr ⟨rfl, Nat.le_of_not_lt h4, by trivial, fun r hr => ?_⟩
                rcases List.mem_append.1 hr with hr | hr
                · rcases List.mem_append.1 hr with hr | hr
                  · exact hinit r hr
                  · rw [List.mem_singleton.1 hr]
                    exact ⟨h2, by omega⟩
                · have hl := habove r hr
                  have hh := (mem_low hA' hr).2
                  refine ⟨by omega, ?_⟩
                  rcases List.mem_cons.1 hr with rfl | hr
                  · exact h3
                  · have := (mem_low hA.2 hr).1
                    omega

end Sys2Proof.Machine
end

