-- ==== Sys2Proof/Laws/Requests.lean ====
section
/-! SUPPORT. How a request's row runs, said once (R180, R184), and the end of an event that leaves what the eligible counts
and the free slots depend on (R109, R174). -/

namespace Sys2Proof.Machine

/-- What the eligible counts and the free slots are computed from is the same in two states. -/
structure SameViews (s t : State) : Prop where
  docks : t.docks = s.docks
  links : t.line.links = s.line.links
  params : t.cfg.params = s.cfg.params
  recs : t.recs = s.recs

theorem SameViews.refl (s : State) : SameViews s s := ⟨rfl, rfl, rfl, rfl⟩

theorem SameViews.eligibleCount {s t : State} (h : SameViews s t) (k : BikeKind) : t.eligibleCount k = s.eligibleCount k := by
  have hl : ∀ d, t.linked d = s.linked d := fun d => by unfold State.linked State.link; rw [h.links]
  have hd : ∀ d, t.dock d = s.dock d := fun d => by unfold State.dock; rw [h.docks]
  unfold State.eligibleCount State.docksInUse State.countedFor State.releaseReady State.aboveThreshold
  simp only [hl, hd, h.params]

/-- The event of a state whose views are those of the state before ends without an owed pass and without an event flag. -/
theorem closeEvent_same {s t : State} (h : SameViews s t) : closeEvent s t = t := by
  have hf : ¬ s.freeSlots < t.freeSlots := by
    unfold State.freeSlots
    rw [h.recs]
    exact Nat.lt_irrefl _
  have ho : owedAnew s t = false := by
    have hd : ∀ d, t.dock d = s.dock d := fun d => by unfold State.dock; rw [h.docks]
    unfold owedAnew
    rw [List.any_eq_false]
    intro d _
    rw [hd]
    cases (s.dock d).owed <;> simp
  unfold closeEvent State.noteAvailability
  simp only [ho, decide_eq_false hf, Bool.or_self, Bool.false_eq_true, if_false, h.eligibleCount, and_self, if_true]

theorem setPort_sameViews (s : State) (p : PortId) (x : Port) : SameViews s (s.setPort p x) := by
  cases p <;> exact ⟨rfl, rfl, rfl, rfl⟩

theorem progress_sameViews (s : State) (p : PortId) (g : Progress) : SameViews s (s.progress p g) :=
  setPort_sameViews _ _ _

theorem SameViews.trans {s t u : State} (h : SameViews s t) (k : SameViews t u) : SameViews s u :=
  ⟨k.docks.trans h.docks, k.links.trans h.links, k.params.trans h.params, k.recs.trans h.recs⟩

/-- A request that executes and has its payload's length is answered by its own rule (R184). -/
theorem serve_runs {s : State} {p : PortId} {code : Byte} {a : Access} {payload : List Byte} {len : List Byte → Bool}
    (rule : List Byte → State → Answer) (h : Executes s p code a payload) (hl : len payload = true) :
    serve p code a len rule s = closeEvent s (match (rule payload s).response with
      | some resp => (rule payload s).state.respond p resp
      | none => (rule payload s).state.progress p .executing) := by
  obtain ⟨h1, h2, h3⟩ := h
  have h4 : requestTests a (len payload) (s.port p).role s.cfg.ready = none := by
    unfold requestTests
    rw [hl, h2]
    rcases h3 with h3 | h3 <;> simp [h3]
  unfold serve
  simp only [h1, if_true, h4]
  all_goals rfl

/-- A request whose rule answers at once and leaves what the views depend on. -/
theorem serve_answers {s : State} {p : PortId} {code : Byte} {a : Access} {payload : List Byte} {len : List Byte → Bool}
    {rule : List Byte → State → Answer} {t : State} {r : Response} (h : Executes s p code a payload)
    (hl : len payload = true) (hr : rule payload s = ⟨t, some r⟩) (hv : SameViews s t) :
    serve p code a len rule s = t.respond p r := by
  rw [serve_runs rule h hl, hr]
  exact closeEvent_same (hv.trans (progress_sameViews _ _ _))

/-- A request whose rule leaves its response to work that goes on, with what the views depend on unchanged. -/
theorem serve_waits {s : State} {p : PortId} {code : Byte} {a : Access} {payload : List Byte} {len : List Byte → Bool}
    {rule : List Byte → State → Answer} {t : State} (h : Executes s p code a payload)
    (hl : len payload = true) (hr : rule payload s = ⟨t, none⟩) (hv : SameViews s t) :
    serve p code a len rule s = t.progress p .executing := by
  rw [serve_runs rule h hl, hr]
  exact closeEvent_same (hv.trans (progress_sameViews _ _ _))

/-- What a request's row can do: nothing, a refusal of the tests of R184, or the request's own rule (R180). -/
theorem serve_cases (p : PortId) (code : Byte) (a : Access) (len : List Byte → Bool) (rule : List Byte → State → Answer)
    (s : State) :
    serve p code a len rule s = s ∨ (∃ st, serve p code a len rule s = s.respond p ⟨st, []⟩)
      ∨ ∃ payload, len payload = true ∧ serve p code a len rule s = closeEvent s (match (rule payload s).response with
          | some resp => (rule payload s).state.respond p resp
          | none => (rule payload s).state.progress p .executing) := by
  unfold serve
  split
  · exact .inl rfl
  · rename_i r _
    split
    · split
      · rename_i st _
        exact .inr (.inl ⟨st, rfl⟩)
      · rename_i h
        refine .inr (.inr ⟨r.payload, ?_, rfl⟩)
        cases hl : len r.payload with
        | true => rfl
        | false => simp [requestTests, hl] at h
    · exact .inl rfl

/-- A response or a progress keeps the limits of both ports (R180). -/
theorem progress_bounded (s : State) (p : PortId) (g : Progress) (h : s.portsBounded) : (s.progress p g).portsBounded := by
  have hl : ∀ os, (putProgress g os).length = os.length := by
    intro os
    induction os with
    | nil => rfl
    | cons o os ih =>
      unfold putProgress
      split
      · simp only [List.length_cons, ih]
      · rfl
  obtain ⟨⟨a1, a2⟩, b1, b2⟩ := h
  cases p
  · exact ⟨⟨by simpa [State.progress, State.setPort, State.port, hl] using a1, a2⟩, b1, b2⟩
  · exact ⟨⟨a1, a2⟩, by simpa [State.progress, State.setPort, State.port, hl] using b1, b2⟩

/-- A request that changes nothing but its response, run by its row. -/
theorem serve_reads (s : State) (p : PortId) (code : Byte) (a : Access) (len : List Byte → Bool)
    (rule : List Byte → State → Answer) (hr : ∀ pl, ∃ r, rule pl s = ⟨s, some r⟩) :
    serve p code a len rule s = s ∨ ∃ r, serve p code a len rule s = s.respond p r := by
  rcases serve_cases p code a len rule s with h | ⟨st, h⟩ | ⟨pl, -, h⟩
  · exact .inl h
  · exact .inr ⟨_, h⟩
  · obtain ⟨r, hb⟩ := hr pl
    rw [hb] at h
    exact .inr ⟨r, h.trans (closeEvent_same (progress_sameViews _ _ _))⟩

/-- What answering a request at the end of a load can do: nothing, a response, or a response with the port's error record cleared
(R183, R194). -/
theorem answerEarly_cases (s : State) (p : PortId) :
    s.answerEarly p = s ∨ (∃ r, s.answerEarly p = s.respond p r)
      ∨ ∃ r, s.answerEarly p = (s.setPort p { s.port p with errorCount := 0, lastError := none }).respond p r := by
  unfold State.answerEarly
  split
  · exact .inl rfl
  · split
    · exact .inr (.inl ⟨_, rfl⟩)
    · split
      · exact (serve_reads s p _ _ _ noOperation (fun _ => ⟨_, rfl⟩)).imp_right .inl
      · split
        · rcases serve_cases p 0x02 .always (lengthIs 0) (readPortStatus p) s with h | ⟨st, h⟩ | ⟨pl, -, h⟩
          · exact .inl h
          · exact .inr (.inl ⟨_, h⟩)
          · exact .inr (.inr ⟨_, h.trans (closeEvent_same ((setPort_sameViews _ _ _).trans (progress_sameViews _ _ _)))⟩)
        · exact (serve_reads s p _ _ _ readStationStatus (fun _ => ⟨_, rfl⟩)).imp_right .inl
    · split
      · exact .inr (.inl ⟨_, rfl⟩)
      · exact .inl rfl

end Sys2Proof.Machine
end

