-- ==== Sys2Proof/Tests/Slice0.lean ====
section
/-! SUPPORT. Tests of the model on small states, and a witness of the hypotheses of each statement. Each test is one command on a
state built by the helpers; its expected values come from the spec: a rule, or the worked case named in its comment. -/

set_option Elab.async false

namespace Sys2Proof.Tests

open Sys2Proof Sys2Proof.Machine

/-! ## Helpers -/

/-- The state that a command leaves. -/
def after (c : Instr) (s : State) : State :=
  match exec c s with
  | .next t => t
  | .fault _ => s
  | .refused _ => s

/-- A station whose load has ended: Port A OPERATOR, Port B RIDER, the default parameters. -/
def plain : State :=
  { State.reset with
    cfg := { State.reset.cfg with ready := true }
    portA := { Port.reset with role := some .operator }
    portB := { Port.reset with role := some .rider } }

/-- A port with one request that waits. -/
def asked (p : PortId) (code : Byte) (payload : List Byte) (s : State) : State :=
  s.setPort p { s.port p with outstanding := [⟨⟨code, payload⟩, .waiting⟩] }

/-- The complete response that a port holds. -/
def answerOf (p : PortId) (s : State) : Option Response :=
  match (s.port p).outstanding with
  | [⟨_, .complete r⟩] => some r
  | _ => none

/-- The response to an OPERATOR request of Port A. -/
def op (c : PortId → Instr) (code : Byte) (payload : List Byte) (s : State) : Option Response :=
  answerOf .a (after (c .a) (asked .a code payload s))

/-- The response to a RIDER request of Port B. -/
def rider (c : PortId → Instr) (code : Byte) (payload : List Byte) (s : State) : Option Response :=
  answerOf .b (after (c .b) (asked .b code payload s))

/-- The millisecond count. -/
def atMs (n : Nat) (s : State) : State := { s with clock := { s.clock with ms := n } }

/-- A dock with a bike in place. -/
def withBike (kind : BikeKind) (number since : Nat) (soc : Option Nat) : Dock :=
  { Dock.reset with
    state := .docked
    picture := some ⟨if kind = .standard then .standardBike else .electricBike, .ok number⟩
    latch := some .closed
    bike := some ⟨kind, some number, since, none, soc⟩ }

/-- A dock record put on a LINKED dock. -/
def put (d : DockId) (k : Dock) (s : State) : State := (s.setDock d k).setLink d ⟨.linked, 0, 0⟩

/-- An answer of a dock module (12.6). -/
def answerBytes (d : DockId) (a b tag : Byte) (number : Nat) (latch applied message level soc : Byte) : List Byte :=
  withCrc16 (be8 (dockNumber d) ++ [a, b, tag] ++ be24 number ++ [latch, applied, message, level, soc])

/-- A transaction with a window of 5 ms, in a phase. -/
def phased (d : DockId) (c : LineCommand) (x : LinePhase) : Transaction :=
  { dock := d, command := c, place := 0, withdrawn := false, frame := [], window := 5, phase := x }

/-- A transaction whose answer window has opened. -/
def inWindow (d : DockId) (c : LineCommand) (s : State) : State :=
  { s with line := { s.line with txn := some (phased d c (.window s.clock.ms)) } }

/-- The key of generation 7, and a token under it; its issue minute 0 and validity 15 open at station time 0. -/
def key7 : List Byte := [1, 2, 3, 4, 5, 6, 7, 8]
def bareToken (serial : Nat) (rider wanted flags : Byte) (reservation : Nat) : Token :=
  { serial := serial, generation := 7, rider := rider, wanted := wanted, flags := flags, issueMinute := 0, validity := 15,
    reservation := reservation, check := 0 }
def token (serial : Nat) (rider wanted flags : Byte) (reservation : Nat) : Token :=
  { bareToken serial rider wanted flags reservation with
    check := checkWord key7 (bareToken serial rider wanted flags reservation) }

/-- An entry that awaits admission. -/
def queued (tag : Byte) (t : Token) : Entry := newEntry tag t

/-- The station of the worked case 1.8: three eligible docks, credit 40, CURRENT of generation 7, link UP, synced. -/
def rush : State :=
  let s := put 2 (withBike .standard 103 12000 none) (put 4 (withBike .standard 105 15400 none)
    (put 8 (withBike .electric 109 13100 (some 80)) plain))
  { s with
    clock := { s.clock with credit := 40, synced := true, sync := .current }
    tokens := { s.tokens with current := ⟨true, 7, key7⟩ }
    refs := { s.refs with link := .up, lastIssued := 3 } }

/-- A station whose entry of a tag is being admitted. -/
def admitting (tag : Byte) (t : Token) (s : State) : State :=
  { s with pres := { s.pres with
      entries := [{ queued tag t with stage := .checking }]
      admission := some (s.heldInputs tag) } }

/-- An entry RELEASING at a dock with a slot reserved. -/
def releasing (tag : Byte) (d : DockId) : Entry :=
  { queued tag (token 500101 1 0 1 0) with
    token := none, stage := .releasing, dock := some d, slotReserved := true, offline := true, creditCharged := 16 }

/-- A dock claimed for a tag, in a stage with a deadline. -/
def claimed (tag : Byte) (d : DockId) (stage : DockState) (deadline : Nat) (s : State) : State :=
  let k := { withBike .standard 103 0 none with
    state := stage, owner := some (.tag tag), deadline := some deadline, lastSerial := some 500101, attempts := 1 }
  let s1 := (put d k s).setRel d (some .fresh)
  { s1 with
    pres := { s1.pres with entries := [releasing tag d] }
    recs := { s1.recs with reserved := 1 } }

/-! ## Layouts and checks (chapter 12) -/

/-- The published check values of the two computations over the digits 1 to 9. -/
theorem test_crc32 : crc32 [0x31, 0x32, 0x33, 0x34, 0x35, 0x36, 0x37, 0x38, 0x39] = 0xCBF43926#32 := by decide +kernel
theorem test_crc16 : crc16 [0x31, 0x32, 0x33, 0x34, 0x35, 0x36, 0x37, 0x38, 0x39] = 0x29B1#16 := by decide +kernel

/-- R198, 12.4: bits 1 to 7 of the token flags are sent as 0, and the check word is sent as received, over the byte as received. -/
theorem test_token_flags : let k := token 500101 1 0 0xFF 7
    (k.bytes[7]?, k.signedBytes[7]?, k.bytes.drop 20) = (some 0x01, some 0xFF, be32 (checkWord key7 k).toNat) := by decide +kernel

/-- 2.7: G at E 259,200 with 200 ppm is 82. -/
theorem test_grace : graceOf { Params.default with drift := 200 } 259200 = 82 := by decide +kernel

/-- 2.7: the three verdicts of the window test. -/
theorem test_window_passes : windowTest 29000000 15 1740000950 82 = .passes 32 := by decide +kernel
theorem test_window_expired : windowTest 29000000 15 1740000990 82 = .expired := by decide +kernel
theorem test_window_not_yet : windowTest 29000000 15 1739999900 82 = .notYet := by decide +kernel

/-- 3.5: 201 joins 100..200 and 202..300. -/
theorem test_insertion_joins : insertSerial [⟨100, 200⟩, ⟨202, 300⟩, ⟨9000, 9499⟩] 201
    = .changed [⟨100, 300⟩, ⟨9000, 9499⟩] := by decide +kernel

/-! ## Well-formed commands: a term that each check refuses -/

theorem test_wf_payload (bs : List Byte) (h : bs.length = 65536) : (Instr.requestFrameEnd .a bs).wellFormed = false := by
  simp [Instr.wellFormed, h]
theorem test_wf_report : (Instr.dockReportReceived (List.replicate 15 0)).wellFormed = false
    ∧ (Instr.dockReportReceived []).wellFormed = false := by decide
theorem test_wf_read_back : (Instr.storeConfigurationEnd (List.replicate 131 0)).wellFormed = false := by decide +kernel
theorem test_wf_written : (Instr.coldReset 133).wellFormed = false := by decide

/-! ## Ports and events -/

/-- R179: a request frame begun with nothing outstanding shifts out PENDING, 0. -/
theorem test_portTransactionStart : (after (.portTransactionStart .a (some 0x25)) plain).portA.dataOut = [0x80, 0] := by
  decide +kernel
/-- 11.10 step 5: the empty frame delivers the response. -/
theorem test_delivery : (after (.portTransactionStart .a (some 0)) (after (.noOperation .a) (asked .a 0x01 [] plain))).portA.dataOut
    = [0x01, 0, 0] := by decide +kernel
/-- 11.10 step 3: a third frame is discarded with PORT_FULL. -/
theorem test_requestFrameEnd : (after (.requestFrameEnd .a []) { plain with portA := { plain.portA with
      outstanding := [⟨⟨0x25, []⟩, .waiting⟩, ⟨⟨0x60, [0, 0]⟩, .waiting⟩], select := .receiving 0x05 } }).portA.lastError
    = some .portFull := by decide +kernel
theorem test_frameShort : (after (.frameShort .a) { plain with portA := { plain.portA with
      select := .receiving 0x05 } }).portA.errorCount = 1 := by decide +kernel
theorem test_bytesAfterStatedLength : (after (.bytesAfterStatedLength .a) { plain with portA := { plain.portA with
      select := .ended, errorCount := 255 } }).portA.errorCount = 255 := by decide +kernel
theorem test_unknownRequest : op .unknownRequest 0x7F [] plain = some ⟨.unknownRequest, []⟩ := by decide +kernel
theorem test_noOperation : op .noOperation 0x01 [] plain = some ⟨.done, []⟩ := by decide +kernel
/-- 11.10 step 6: count 1, last PORT_FULL; here with role OPERATOR and READY high. -/
theorem test_readPortStatus : op .readPortStatus 0x02 [] { plain with portA := { plain.portA with
      errorCount := 1, lastError := some .portFull } } = some ⟨.done, [0, 1, 3, 2, 1]⟩ := by decide +kernel
theorem test_readStationStatus : (op .readStationStatus 0x03 [] plain).map (fun r => r.payload.take 8)
    = some [1, 0, 0, 0, 0, 0, 2, 1] := by decide +kernel
theorem test_setEventMask : (after (.setEventMask .a) (asked .a 0x04 [0x05] plain)).portA.enabled
    = { EventFlags.restarted with dockFault := true } := by decide +kernel
/-- R186: STATION_RESTARTED, priority 1, is returned and cleared. -/
theorem test_readEvent : op .readEvent 0x05 [] plain = some ⟨.done, [1, 0]⟩ := by decide +kernel
theorem test_clearEvents : (after (.clearEvents .a) (asked .a 0x06 [0x01] plain)).portA.attn = false := by decide +kernel
theorem test_role : rider .setTime 0x20 [0, 0, 0, 1] plain = some ⟨.role, []⟩ := by decide +kernel

/-! ## Presentations and admission -/

theorem test_presentToken : rider .presentToken 0x10 (21 :: (token 500101 1 0 1 0).bytes) plain
    = some ⟨.done, [21]⟩ := by decide +kernel
/-- R5: 46 unread results leave no room for 3 units. -/
theorem test_presentToken_full : rider .presentToken 0x10 (21 :: (token 500101 1 0 1 0).bytes)
    { plain with pres := { plain.pres with results := List.replicate 46 (plainResult 1 .referred none none none none) } }
    = some ⟨.resultsFull, []⟩ := by decide +kernel
theorem test_readResult : rider .readResult 0x11 [] { plain with pres := { plain.pres with
      results := [plainResult 24 .final (some .refused) (some .inUse) none none] } }
    = some ⟨.done, [24, 3, 3, 4, 0, 0, 0, 0, 0]⟩ := by decide +kernel
theorem test_admissionStart : (after .admissionStart { rush with pres := { rush.pres with
      entries := [queued 21 (token 500101 1 0 1 0)] } }).pres.admission.map Admission.tag = some 21 := by decide +kernel
/-- R7: the start is taken before a request that waits. -/
theorem test_admissionStart_first : (asked .a 0x20 [0, 0, 0, 0] { rush with pres := { rush.pres with
      entries := [queued 21 (token 500101 1 0 1 0)] } }).due = some .admissionStart := by decide +kernel
/-- 1.8, tag 21: offline, dock 3, credit 40 - 16. -/
theorem test_admissionComplete : let t := after .admissionComplete (admitting 21 (token 500101 1 0 1 0) rush)
    ((t.dock 2).state, t.clock.credit, t.recs.reserved) = (.claimed, 24, 1) := by decide +kernel
/-- 1.8, tag 23: credit 0 is below the cost, so the route is refer, id 4. -/
theorem test_admissionComplete_refer : let t := after .admissionComplete (admitting 23 (token 500103 1 1 1 0)
      { rush with clock := { rush.clock with credit := 0 } })
    (t.refs.lastIssued, t.pres.results.map Result.reason) = (4, [some .noCredit]) := by decide +kernel

/-! ## Time, keys, revocation -/

/-- 2.9: Set Time at uptime 90 carries 90. -/
theorem test_setTime : op .setTime 0x20 (be32 1740000000) { atMs 90000 plain with clock :=
      { (atMs 90000 plain).clock with stationTime := 90 } } = some ⟨.done, [0, 0, 0, 90]⟩ := by decide +kernel
/-- R29: a Set Time after the boundary that lapses the sync; CLOCK_UNSYNCED is raised and stays pending. -/
theorem test_setTime_after_lapse : let t := after (.setTime .a) (asked .a 0x20 (be32 7) { atMs 3691000 plain with
      clock := { (atMs 3691000 plain).clock with sync := .current, lastSync := 90 }
      cfg := { plain.cfg with params := { Params.default with syncLifetime := 3600 } } })
    (t.clock.sync, t.syncAge, t.portA.pending.clockUnsynced) = (.current, 0, true) := by decide +kernel
theorem test_secondBoundary : let t := after .secondBoundary (atMs 59999 plain)
    (t.uptime, t.clock.stationTime, t.clock.refillsDue) = (60, 1, 1) := by decide +kernel
/-- 2.9: age 3,601 is over a lifetime of 3,600, and raises CLOCK_UNSYNCED on the OPERATOR port. -/
theorem test_syncLapse : let t := after .syncLapse { atMs 3691000 plain with
      clock := { (atMs 3691000 plain).clock with sync := .current, lastSync := 90 }
      cfg := { plain.cfg with params := { Params.default with syncLifetime := 3600 } } }
    (t.clock.sync, t.portA.pending.clockUnsynced, t.portB.pending.clockUnsynced) = (.lapsed, true, false) := by decide +kernel
theorem test_usedTokenExpiry : (after .usedTokenExpiry { atMs 60000 plain with tokens := { plain.tokens with
      used := [⟨1, 60, .final none 0 0 true 16⟩, ⟨2, 61, .final none 0 0 true 16⟩, ⟨3, 60, .tentative 5 16⟩] } }).tokens.used.map
      UsedEntry.serial = [2, 3] := by decide +kernel
/-- 2.8: the smaller of 126 + 4 and 128. -/
theorem test_creditRefill : (after .creditRefill { plain with clock := { plain.clock with
      credit := 126, refillsDue := 1 } }).clock.credit = 128 := by decide +kernel
/-- 3.4: Load Key 7 while CURRENT holds 7. -/
theorem test_loadKey : op .loadKey 0x21 (7 :: key7) rush = some ⟨.state, []⟩ := by decide +kernel
theorem test_promoteKey : let t := after (.promoteKey .a) (asked .a 0x22 [] { plain with tokens := { plain.tokens with
      current := ⟨true, 7, key7⟩, next := ⟨true, 8, key7⟩ } })
    (t.tokens.current.generation, t.tokens.next) = (8, KeySlot.empty) := by decide +kernel
theorem test_beginRevocationLoad : op .beginRevocationLoad 0x23 [12, 4, 1] plain = some ⟨.outOfRange, []⟩ := by decide +kernel
/-- 3.5: 301..400 touches 100..300. -/
theorem test_addRevocationRanges : op .addRevocationRanges 0x24 (1 :: (be32 301 ++ be32 400)) { plain with tokens := { plain.tokens with
      load := .opened ⟨12, 4, [⟨50, 60⟩, ⟨100, 300⟩]⟩ } } = some ⟨.order, []⟩ := by decide +kernel
/-- 3.5: 20,000 is over the announced 4. -/
theorem test_addRevocationRanges_count : op .addRevocationRanges 0x24 (2 :: (be32 9000 ++ be32 9499 ++ be32 20000 ++ be32 20000))
      { plain with tokens := { plain.tokens with load := .opened ⟨12, 4, [⟨50, 60⟩, ⟨100, 300⟩, ⟨302, 400⟩]⟩ } }
    = some ⟨.count, []⟩ := by decide +kernel
/-- 3.5: 3 of the announced 4. -/
theorem test_commitRevocationLoad : op .commitRevocationLoad 0x25 [] { plain with tokens := { plain.tokens with
      load := .opened ⟨12, 4, [⟨50, 60⟩, ⟨100, 300⟩, ⟨302, 400⟩]⟩ } } = some ⟨.incomplete, []⟩ := by decide +kernel
/-- A complete load of one range, committed on Port A and not yet replaced. -/
def committed : State := after (.commitRevocationLoad .a) (asked .a 0x25 [] { plain with tokens := { plain.tokens with
  load := .opened ⟨12, 1, [⟨50, 60⟩]⟩ } })
theorem test_commit_withholds : answerOf .a committed = none := by decide +kernel
theorem test_revocationReplacementStart : (after .revocationReplacementStart committed).tokens.replacing = true := by decide +kernel
theorem test_revocationReplacementEnd : let t := after .revocationReplacementEnd (after .revocationReplacementStart committed)
    (t.tokens.active, answerOf .a t) = ([⟨50, 60⟩], some ⟨.done, [12, 0, 1]⟩) := by decide +kernel
theorem test_abandonRevocationLoad : op .abandonRevocationLoad 0x26 [] plain = some ⟨.state, []⟩ := by decide +kernel
theorem test_revokeSerial : op .revokeSerial 0x27 [0, 0, 0, 0] plain = some ⟨.outOfRange, []⟩ := by decide +kernel
/-- 3.5: Revoke Serial 201, DONE, count 2. -/
theorem test_revokeSerialInsertion : answerOf .a (after .revokeSerialInsertion (after (.revokeSerial .a) (asked .a 0x27 [0, 0, 0, 201]
      { plain with tokens := { plain.tokens with active := [⟨100, 200⟩, ⟨202, 300⟩, ⟨9000, 9499⟩] } })))
    = some ⟨.done, [0, 0, 2]⟩ := by decide +kernel
theorem test_readUsedToken : op .readUsedToken 0x28 [0, 0, 0, 3] { plain with tokens := { plain.tokens with
      used := [⟨3, 60, .tentative 5 16⟩] } } = some ⟨.done, [1, 0, 0, 0, 60, 5]⟩ := by decide +kernel
/-- R64, R198: a FINAL entry's bike number has no presence byte. -/
theorem test_readUsedToken_final : op .readUsedToken 0x28 [0, 0, 0, 3] { plain with tokens := { plain.tokens with
      used := [⟨3, 60, .final (some 103) 2 5 true 16⟩] } }
    = some ⟨.done, [2, 0, 0, 0, 60, 0, 0, 103, 3, 0, 0, 0, 5, 1, 0, 16]⟩ := by decide +kernel

/-! ## Referrals and reservations -/

/-- A referral of tag 23 that runs out at 6 s. -/
def referral : Referral :=
  { id := 4, tag := 23, token := token 500103 1 1 1 0, reason := .noCredit, fetched := false, deadline := 6000 }

/-- The station after tag 23 was referred. -/
def referred : State :=
  let s := rush
  { s with
    pres := { s.pres with
      entries := [{ queued 23 (token 500103 1 1 1 0) with token := none, stage := .referred, referral := some 4, owed := 2 }] }
    refs := { s.refs with opened := [referral], lastIssued := 4 }
    tokens := { s.tokens with used := [⟨500103, 900, .tentative 23 0⟩] } }

theorem test_nextReferral : (op .nextReferral 0x30 [] referred).map (fun r => (r.status, r.payload.take 2))
    = some (.done, [4, 23]) := by decide +kernel
/-- R68: a referral whose deadline is reached is not returned. -/
theorem test_nextReferral_reached : op .nextReferral 0x30 [] (atMs 6000 referred) = some ⟨.empty, []⟩ := by decide +kernel
theorem test_readReferral : op .readReferral 0x31 [5] referred = some ⟨.notFound, []⟩ := by decide +kernel
/-- R72: APPROVE for 900 s claims dock 3, the longest docked standard bike. -/
theorem test_answerReferral : op .answerReferral 0x32 ([4] ++ be32 500103 ++ [1] ++ be16 900) referred
    = some ⟨.done, [1, 3, 0]⟩ := by decide +kernel
theorem test_referralDeadline : let t := after (.referralDeadline 4) (atMs 6000 referred)
    (t.refs.opened, t.tokens.used, t.pres.results.map Result.reason) = ([], [], [some .timedOut]) := by decide +kernel
/-- 4.9: DOWN with one referral open, DONE, 1 referral ended. -/
theorem test_setLinkState : op .setLinkState 0x33 [2] referred = some ⟨.done, [0, 1]⟩ := by decide +kernel

/-- R80: the kind STANDARD for 600 s holds dock 3. -/
theorem test_placeReservation : op .placeReservation 0x40 (be32 7700 ++ be16 600 ++ [2, 1]) rush
    = some ⟨.done, [3, 1, 0, 0, 2, 88]⟩ := by decide +kernel
/-- A HELD reservation on dock 3. -/
def held : State :=
  let s := rush.setDock 2 { rush.dock 2 with heldBy := some 7700 }
  { s with resv := [{ code := 7700, dock := 2, kind := .standard, expiry := 600, ended := none, moved := 0 }] }
theorem test_cancelReservation : (after (.cancelReservation .a) (asked .a 0x41 (be32 7700) held)).resv.map Reservation.ended
    = [some .cancelled] := by decide +kernel
theorem test_readReservations : op .readReservations 0x42 [] held
    = some ⟨.done, [0, 1, 0, 0, 30, 20, 3, 1, 0, 0, 2, 88, 1, 0, 0, 0]⟩ := by decide +kernel
theorem test_reservationExpiry : let t := after .reservationExpiry (atMs 600000 held)
    (t.resv.map Reservation.ended, (t.dock 2).heldBy) = ([some .expired], none) := by decide +kernel

/-! ## Docks, the line -/

theorem test_clearFault : let t := after (.clearFault .a) (asked .a 0x50 [3] (rush.setDock 2 { rush.dock 2 with
      state := .fault, faultCause := some .jam }))
    ((t.dock 2).state, (t.dock 2).bike) = (.unknown, none) := by decide +kernel
/-- R107, R85: OUT moves the hold to dock 5, the other standard bike. -/
theorem test_setDockService : let t := after (.setDockService .a) (asked .a 0x51 [3, 1] held)
    ((t.dock 2).state, (t.dock 4).heldBy, t.resv.map Reservation.dock) = (.outOfService, some 7700, [4]) := by decide +kernel
/-- R110: the RIDER role sees number, state, lamp, kind, charge, release-ready and counted. -/
theorem test_readDock : rider .readDock 0x52 [9] rush = some ⟨.done, [9, 4, 1, 2, 80, 1, 1]⟩ := by decide +kernel
theorem test_readDockSummary : rider .readDockSummary 0x53 [] rush = some ⟨.done, [0, 2, 0, 1, 0, 0, 0, 0, 0, 0]⟩ := by decide +kernel
theorem test_readLineStatus : op .readLineStatus 0x54 [65] rush = some ⟨.outOfRange, []⟩ := by decide +kernel
/-- R125, R198: a latch entry's resend wait has its presence byte; a dock with no charge entry shows kind, level and resend wait
absent. -/
theorem test_readLineStatus_entries : (op .readLineStatus 0x54 [3] { rush with line := { rush.line with
      latchQ := [⟨2, .latchOpen, true⟩] } }).map (fun r => r.payload.drop 5)
    = some [2, 1, 1, 0, 0xFF, 0, 0, 0, 0, 1, 0, 0, 1] := by decide +kernel
def poll : Transaction :=
  { dock := 0, command := .poll, place := 0, withdrawn := false, frame := [], window := 5, phase := .sending }
theorem test_commandFrameSent : (after .commandFrameSent { plain with line := { plain.line with txn := some poll } }).line.txn.map
      Transaction.phase = some (.window 0) := by decide +kernel
/-- 6.8, reports 3 and 4: the third matching report confirms the return and writes its record; the first byte comes at the last
millisecond of the window, the others 5 ms later (R113). -/
theorem test_dockReportReceived :
    let k := { Dock.reset with state := .arriving, candidate := some ⟨.standardBike, .ok 40112⟩, count := 2 }
    let bytes := answerBytes 17 1 0 1 40112 0 0xFF 0 0 0xFF
    let t := after (.dockReportReceived (bytes.drop 1)) (atMs 10 (after (.dockReportReceived (bytes.take 1))
      (atMs 5 (inWindow 17 .poll (put 17 k plain)))))
    ((t.dock 17).state, t.recs.records.map (fun q => (q.record.kind, q.record.bike))) = (.docked, [(.bikeReturn, some 40112)]) := by
  decide +kernel
/-- R113, R114: an answer that begins after the window is bad, however good its bytes are. -/
theorem test_dockReportReceived_late :
    ((after (.dockReportReceived (answerBytes 2 1 0 1 103 0 0xFF 0 0 0xFF)) (atMs 6 (inWindow 2 .poll rush))).link 2).bad = 1 := by
  decide +kernel
/-- R122: the fourth bad answer in a row loses the link. -/
theorem test_answerWindowClose : ((after .answerWindowClose (atMs 5 (inWindow 2 .poll (rush.setLink 2 ⟨.linked, 0, 3⟩)))).link 2).state
    = .lost := by decide +kernel
/-- R113: the window's close does nothing once an answer has begun; 5 ms after its last byte the transaction ends bad. -/
def answering : State := after (.dockReportReceived [3]) (atMs 5 (inWindow 2 .poll rush))
theorem test_answerByteTimeout : ((after (.answerByteTimeout 5) (atMs 10 (after .answerWindowClose answering))).link 2).bad = 1
    ∧ (answering.link 2).bad = 0 := by decide +kernel

/-! ## Release and charging -/

theorem test_serviceRelease : op .serviceRelease 0x55 [3] rush = some ⟨.done, [3, 1, 0, 0, 103]⟩ := by decide +kernel
theorem test_latchGrant : let t := after .latchGrant { (claimed 21 2 .claimed 10000 rush) with rel :=
      { (claimed 21 2 .claimed 10000 rush).rel with grantQ := [2] } }
    ((t.dock 2).state, t.rel.pulses, t.line.latchQ.map LineEntry.command) = (.unlatching, 1, [.latchOpen]) := by decide +kernel
theorem test_claimDeadline : let t := after (.claimDeadline 2) (atMs 10000 (claimed 21 2 .claimed 10000 rush))
    ((t.dock 2).state, t.pres.results.map Result.reason, t.clock.credit) = (.docked, [some .claimTimeout], 56) := by decide +kernel
/-- 8.9: the first deadline repeats the attempt, the second, with 1 retry, is JAM and the alternate dock 5 is claimed. -/
theorem test_confirmDeadline : (((after (.confirmDeadline 2) (atMs 1500 (claimed 21 2 .unlatching 1500 rush))).dock 2).attempts,
      ((after (.confirmDeadline 2) (atMs 1500 (claimed 21 2 .unlatching 1500 rush))).dock 2).deadline) = (2, some 3000) := by decide +kernel
theorem test_confirmDeadline_jam : let s := claimed 21 2 .unlatching 1500 rush
    let t := after (.confirmDeadline 2) (atMs 1500 (s.setDock 2 { s.dock 2 with attempts := 2 }))
    ((t.dock 2).faultCause, (t.dock 4).state, (t.dock 4).owner) = (some .jam, .claimed, some (.tag 21)) := by decide +kernel
/-- 8.10: the pickup window ends; LATCH_CLOSE is asked and the relock deadline is 3 s ahead. -/
theorem test_pickupDeadline : let t := after (.pickupDeadline 2) (atMs 330000 (claimed 21 2 .pickup 330000 rush))
    ((t.dock 2).state, (t.dock 2).deadline, t.line.latchQ.map LineEntry.command) = (.relock, some 333000, [.latchClose]) := by
  decide +kernel
/-- 8.10: the latch still OPEN at the relock deadline is JAM_OPEN, and the presentation ends NOT_TAKEN. -/
theorem test_relockDeadline : let s := claimed 21 2 .relock 333000 rush
    let t := after (.relockDeadline 2) (atMs 333000 (s.setDock 2 { s.dock 2 with latch := some .opened }))
    ((t.dock 2).faultCause, t.pres.results.map Result.outcome, t.recs.reserved) = (some .jamOpen, [some .notTaken], 0) := by
  decide +kernel
theorem test_unownedRelockDeadline : let t := after (.unownedRelockDeadline 2) (atMs 3000 (put 2 { withBike .standard 103 0 none with
      state := .relock, deadline := some 3000 } plain))
    (t.dock 2).state = .docked := by decide +kernel
theorem test_staleDeadline : let s := (claimed 21 2 .pickup 120000 rush).setRel 2 (some { ReleaseState.fresh with stale := some .pickup })
    let t := after (.staleDeadline 2) (atMs 120000 s)
    ((t.dock 2).state, t.recs.records.map (fun q => (q.record.kind, q.record.unobserved)), t.pres.results.map Result.outcome)
      = (.empty, [(.release, true)], [some .taken]) := by decide +kernel

/-- An electric bike on dock 9 with a contract. -/
def contract (c : Charge) : State := rush.setChg 8 c
theorem test_chargeOffer : let t := after (.chargeOffer 8) (contract { Charge.reset with contract := some .idle, offerTime := some 0 })
    ((t.chg 8).contract, t.line.chargeQ.map LineEntry.command) = (some .offered, [.caps]) := by decide +kernel
theorem test_chargeAnswerDeadline : let t := after (.chargeAnswerDeadline 8) (atMs 2000 (contract { Charge.reset with
      contract := some .offered, capsDelivered := true, answerDeadline := some 2000 }))
    ((t.chg 8).contract, (t.chg 8).offerTime) = (some .idle, some 32000) := by decide +kernel
/-- R168: with one pulse and nothing counted, H is 1,500 - 90. -/
theorem test_readCharge : (op .readCharge 0x56 [9] { rush with rel := { rush.rel with pulses := 1 } }).map
      (fun r => r.payload.take 12) = some [5, 220, 0, 90, 0, 0, 0, 1, 5, 130, 0, 0] := by decide +kernel

/-! ## Records, configuration, resets -/

def record (seq : Nat) : QueuedRecord :=
  ⟨seq, { kind := .release, dock := 2, bike := some 103, serial := some 500101, uptime := 7, station := none, offline := true,
          late := false, unobserved := false, bounce := false, found := false }⟩
def recorded : State := { plain with recs := { plain.recs with records := [record 65535, record 0], nextSeq := 1 } }
theorem test_readRecords : op .readRecords 0x60 [0, 0] recorded = some ⟨.done,
    [0, 1] ++ [0, 0, 1, 0, 3, 0x81, 0, 0, 103, 0, 7, 0xA1, 0x85, 0, 0, 0, 7, 0, 0, 0, 0] ++ [0, 0, 0] ++ [0, 2]⟩ := by decide +kernel
theorem test_acknowledgeRecords : op .acknowledgeRecords 0x61 [0xFF, 0xFF] recorded = some ⟨.done, [0, 1, 0, 1]⟩ := by decide +kernel
/-- R171, R174: TAG_MISMATCH on a claimed dock with one slot free: the ANOMALY takes it, the RETURN becomes owed, and the slot that
the rollback frees takes it. -/
theorem test_owed_pass : let s := claimed 21 2 .claimed 10000 rush
    let k := { s.dock 2 with candidate := some ⟨.standardBike, .ok 104⟩, count := 2 }
    let s1 := { s.setDock 2 k with recs := { s.recs with reserved := 127 }, pres := { s.pres with
      entries := s.pres.entries.map (fun e => { e with alternateUsed := true }) } }
    let t := after (.dockReportReceived (answerBytes 2 1 0 1 104 0 0xFF 0 0 0xFF)) (inWindow 2 .poll s1)
    (t.recs.records.map (fun q => q.record.kind), (t.dock 2).owed, t.recs.reserved) = ([.anomaly, .bikeReturn], none, 126) := by
  decide +kernel
/-- 2.8: C_cap 5 clamps 128 to 80. -/
theorem test_setParameter : (after (.setParameter .a) (asked .a 0x70 [21, 0, 0, 0, 5] { plain with clock := { plain.clock with
      credit := 128 } })).clock.credit = 80 := by decide +kernel
/-- R166: P_latch lowered from 90 to 80 admits the WAITING level of 100 W that 180 - 90 did not. -/
theorem test_setParameter_grants : let s := rush.setChg 8 { Charge.reset with contract := some .waiting, requested := some 1 }
    let t := after (.setParameter .a) (asked .a 0x70 [24, 0, 0, 0, 80] { s with cfg := { s.cfg with params :=
      { s.cfg.params with bTotal := 180, level1 := 100 } } })
    ((t.chg 8).contract, (t.chg 8).granted) = (some .active, some 1) := by decide +kernel
theorem test_readParameter : op .readParameter 0x71 [2] plain = some ⟨.done, [0, 0, 0, 64, 0, 0, 0, 0, 0]⟩ := by decide +kernel
/-- A store of the values in force. -/
def storing : State := after (.storeConfiguration .a) (asked .a 0x72 [0, 0] plain)
theorem test_storeConfiguration : storing.cfg.store.map (fun j => (j.port, j.image.length, j.image.take 10))
    = some (.a, 132, [0x2A, 0x01, 0, 0, 0, 0, 0, 0, 0, 1]) := by decide +kernel
set_option maxRecDepth 20000 in
theorem test_storeConfigurationEnd : let t := after (.storeConfigurationEnd ((storing.cfg.store.map StoreJob.image).getD [])) storing
    (t.cfg.valid, imageValid (t.loadImage true)) = (true, true) := by decide +kernel
theorem test_restartStation : let t := after (.restartStation .a) (asked .a 0x73 [] referred)
    (t.cfg.ready, t.pres.entries.length, t.refs.lastIssued, (t.dock 2).state, t.tokens.current.generation)
      = (false, 0, 4, .unknown, 7) := by decide +kernel
theorem test_coldReset : (after (.coldReset 0) rush).tokens.current = KeySlot.empty := by decide +kernel
set_option maxRecDepth 20000 in
/-- R193, R194, R121: a memory that does not answer gives the defaults and CONFIG_INVALID, and the first POLL is of dock 1. -/
theorem test_configurationLoadEnd : let t := after (.configurationLoadEnd false) State.reset
    (t.cfg.ready, t.cfg.valid, t.portA.pending.configInvalid, t.portA.role, t.line.txn.map (fun x => (x.dock, x.command)))
      = (true, false, true, some .rider, some (0, .poll)) := by decide +kernel

/-- A station whose load after a restart goes on: roles kept, READY low; and with requests that wait on Port A. -/
def loading : State := { plain with cfg := { plain.cfg with ready := false } }
def loadingWith (rs : List Request) : State :=
  { loading with portA := { loading.portA with outstanding := rs.map (fun r => ⟨r, .waiting⟩) } }
set_option maxRecDepth 20000 in
/-- R194: Set Time that waits at the end of a load is answered NOT_READY, a request of the RIDER role by the old role ROLE, and No
Operation DONE; none is answered again. -/
theorem test_waiting_requests :
    ([[⟨0x20, [0, 0, 0, 1]⟩, ⟨0x11, []⟩], [⟨0x01, []⟩, ⟨0x07, []⟩]] : List (List Request)).map (fun rs =>
      (after (.configurationLoadEnd false) (loadingWith rs)).portA.outstanding.map Outstanding.progress)
    = [[.complete ⟨.notReady, []⟩, .complete ⟨.role, []⟩], [.complete ⟨.done, []⟩, .complete ⟨.unknownRequest, []⟩]] := by
  decide +kernel

/-! ## Witnesses of the statements' hypotheses -/

/-- An OPERATOR port with one request that waits executes it next. -/
theorem executes_op (s : State) (code : Byte) (payload : List Byte)
    (h : s.portA.role = some .operator ∧ s.cfg.ready = true) :
    Executes (asked .a code payload s) .a code .operator payload := ⟨rfl, by simp [asked, State.port, State.setPort, h.1, Access.allows], .inl h.2⟩

/-- The same for a request that belongs to both roles. -/
theorem executes_both (s : State) (p : PortId) (code : Byte) (payload : List Byte) (h : s.cfg.ready = true) :
    Executes (asked p code payload s) p code .both payload := by
  cases p <;> exact ⟨rfl, by simp [Access.allows], .inl h⟩

/-- The same for a request that is answered before the load has ended. -/
theorem executes_always (s : State) (p : PortId) (code : Byte) : Executes (asked p code [] s) p code .always [] := by
  cases p <;> exact ⟨rfl, by simp [Access.allows], .inr rfl⟩

/-- The same for a RIDER port. -/
theorem executes_rider (s : State) (code : Byte) (payload : List Byte)
    (h : s.portB.role = some .rider ∧ s.cfg.ready = true) :
    Executes (asked .b code payload s) .b code .rider payload := ⟨rfl, by simp [asked, State.port, State.setPort, h.1, Access.allows], .inl h.2⟩

/-- A range of the list at the bounds. -/
def brimRanges : List SerialRange := (List.range 1024).map (fun i => ⟨4 * i + 1, 4 * i + 2⟩)

/-- A state with every bounded collection and count at its bound, and a command that waits. -/
def brim : State :=
  { plain with
    pending := [.secondBoundary]
    clock := { plain.clock with ms := Config.maxMs, stationTime := Config.max32, lastSync := Config.max32, credit := 128 }
    pres := { plain.pres with entries := (List.range 16).map (fun i => queued (BitVec.ofNat 8 i) (bareToken 1 1 0 1 0)) }
    portA := { plain.portA with
      outstanding := [⟨⟨0x01, []⟩, .waiting⟩, ⟨⟨0x05, []⟩, .waiting⟩], errorCount := 255, lastError := some .portFull }
    tokens := { plain.tokens with
      active := brimRanges, load := .opened ⟨12, 1024, brimRanges⟩
      used := (List.range 96).map (fun i => ⟨i + 1, 60, .final none 0 0 true 16⟩) }
    refs := { plain.refs with opened := (List.range 8).map (fun i =>
      { id := BitVec.ofNat 8 i, tag := 0, token := bareToken 1 1 0 1 0, reason := .noCredit, fetched := false, deadline := 0 }) }
    resv := (List.range 16).map (fun i =>
      { code := i + 1, dock := 0, kind := .standard, expiry := 600, ended := none, moved := 0 })
    line := { plain.line with latchQ := allDocks.map (fun d => ⟨d, .latchOpen, false⟩)
                              chargeQ := allDocks.map (fun d => ⟨d, .stop, false⟩) }
    docks := plain.docks.map (fun k => { k with owed := some (plain.tripRecord .anomaly 0 none none) })
    recs := { plain.recs with reserved := 128 }
    cfg := { plain.cfg with serial := [(0, 1), (131, 2)] } }

set_option maxRecDepth 20000 in
/-- The invariants hold at the bounds, and a step is taken from there: the hypotheses of every invariant statement. -/
theorem witness_invariants : brim.Safe ∧ (brim.dock 63).owed.isSome = true ∧ ∃ t, step brim = .next t := by
  refine ⟨⟨?_, ⟨?_, ?_⟩, ?_, ⟨⟨?_, ?_⟩, ⟨?_, ?_⟩⟩, ⟨⟨?_, ?_⟩, ⟨?_, ?_, ?_⟩⟩, ⟨?_, ?_⟩, ⟨?_, ?_⟩, ⟨?_, ?_⟩, ⟨?_, ?_⟩, ⟨?_, ?_, ?_⟩, ?_, fun _ => ?_⟩,
    ?_, ⟨_, rfl⟩⟩
  case refine_1 => show _ ≤ _; decide +kernel
  case refine_4 => show _ ≤ _; decide +kernel
  case refine_25 => show _ = true; decide +kernel
  all_goals decide +kernel

/-- The empty queue: a due event; the last millisecond of a second; another millisecond. -/
theorem witness_idle :
    (committed.pending = [] ∧ committed.due = some .revocationReplacementStart)
    ∧ ((atMs 999 plain).pending = [] ∧ (atMs 999 plain).due = none ∧ (atMs 999 plain).clock.ms % 1000 = 999)
    ∧ ((atMs 998 plain).due = none ∧ (atMs 998 plain).clock.ms % 1000 ≠ 999) := by decide +kernel

/-- A request of the other role: Set Time on the RIDER port, Present Token on the OPERATOR port. -/
theorem witness_other_role :
    (((asked .b 0x20 [] plain).port .b).next = some ⟨0x20, []⟩ ∧ ((asked .b 0x20 [] plain).port .b).role = some .rider
      ∧ (0x20 : Byte) ∈ requestCodes
      ∧ (0x20 : Byte) ∉ ([0x01, 0x02, 0x03, 0x04, 0x05, 0x06, 0x10, 0x11, 0x52, 0x53] : List Byte))
    ∧ (((asked .a 0x10 [] plain).port .a).next = some ⟨0x10, []⟩ ∧ ((asked .a 0x10 [] plain).port .a).role = some .operator
      ∧ (0x10 : Byte) ∈ ([0x10, 0x11] : List Byte)) := by decide +kernel

/-- A command that none of the rules over all commands excepts. -/
theorem witness_over_commands : ∃ (c : Instr) (s t : State), exec c s = .next t ∧ (∀ p, c ≠ .setTime p)
    ∧ (∀ n, c ≠ .coldReset n) ∧ (∀ p, c ≠ .loadKey p) ∧ (∀ p, c ≠ .promoteKey p) ∧ c ≠ .revocationReplacementEnd
    ∧ c ≠ .revokeSerialInsertion ∧ (∀ b, c ≠ .configurationLoadEnd b) ∧ (∀ p, c ≠ .setParameter p) :=
  ⟨.secondBoundary, plain, _, rfl, nofun, nofun, nofun, nofun, nofun, nofun, nofun, nofun⟩

/-- A port with a select period whose request code has come. -/
def receiving (os : List Outstanding) : State :=
  { plain with portA := { plain.portA with outstanding := os, select := .receiving 0x05, errorCount := 255 } }

def waitingOne : Outstanding := ⟨⟨0x25, []⟩, .executing⟩

theorem witness_first_byte :
    (∀ c, (plain.port .a).select ≠ .receiving c)
    ∧ (∀ c, ((after (.noOperation .a) (asked .a 0x01 [] plain)).port .a).select ≠ .receiving c)
    ∧ ((after (.noOperation .a) (asked .a 0x01 [] plain)).port .a).outstanding = [⟨⟨0x01, []⟩, .complete ⟨.done, []⟩⟩]
    ∧ (∀ o, (plain.port .a).outstanding.head? = some o → o.isComplete = false)
    ∧ (∀ o, ((asked .a 0x01 [] plain).port .a).outstanding.head? = some o → o.isComplete = false) :=
  ⟨nofun, nofun, rfl, nofun, fun o h => by cases h; rfl⟩

/-- A frame that ends with 1 and with 2 outstanding requests, and a period whose frame has ended. -/
theorem witness_frames :
    (((receiving [waitingOne]).port .a).select = .receiving 0x05 ∧ ((receiving [waitingOne]).port .a).outstanding.length < 2)
    ∧ (((receiving [waitingOne, waitingOne]).port .a).select = .receiving 0x05
      ∧ 2 ≤ ((receiving [waitingOne, waitingOne]).port .a).outstanding.length)
    ∧ ({ plain.portA with select := .ended } : Port).select = .ended := by decide +kernel

theorem witness_port_requests :
    (((asked .a 0x07 [] plain).port .a).next = some ⟨0x07, []⟩ ∧ (0x07 : Byte) ∉ requestCodes)
    ∧ Executes (asked .a 0x01 [] State.reset) .a 0x01 .always [] ∧ Executes (asked .b 0x02 [] plain) .b 0x02 .always []
    ∧ Executes (asked .a 0x03 [] State.reset) .a 0x03 .always [] ∧ Executes (asked .b 0x53 [] plain) .b 0x53 .both [] :=
  ⟨by decide +kernel, executes_always _ _ _, executes_always _ _ _, executes_always _ _ _, executes_both _ _ _ _ rfl⟩

/-- Docks 1 and 64 are in use by default, 0 and 65 are not. -/
theorem witness_dock_reads :
    (∀ n, Executes (asked .a 0x52 [n] rush) .a 0x52 .both [n] ∧ Executes (asked .a 0x54 [n] rush) .a 0x54 .operator [n]
      ∧ Executes (asked .a 0x56 [n] rush) .a 0x56 .operator [n])
    ∧ (rush.dockInUse? (1 : Byte).toNat = some 0 ∧ rush.dockInUse? (64 : Byte).toNat = some 63)
    ∧ (rush.dockInUse? (0 : Byte).toNat = none ∧ rush.dockInUse? (65 : Byte).toNat = none) :=
  ⟨fun n => ⟨executes_both _ _ _ _ rfl, executes_op _ _ _ ⟨rfl, rfl⟩, executes_op _ _ _ ⟨rfl, rfl⟩⟩, by decide +kernel,
    by decide +kernel⟩

/-- Serial 3 held FINAL until 60, at 59 s and at 60 s. -/
def usedThree : State := { atMs 59999 plain with tokens := { plain.tokens with used := [⟨3, 60, .final none 0 0 true 16⟩] } }

theorem witness_table_reads :
    (∀ pl, Executes (asked .a 0x28 pl usedThree) .a 0x28 .operator pl)
    ∧ (beVal [0, 0, 0, 0] = 0 ∧ beVal [0, 0, 0, 3] ≠ 0 ∧ [(0 : Byte), 0, 0, 3].length = 4)
    ∧ (usedOf usedThree.tokens.used (beVal [0, 0, 0, 3]) = some ⟨3, 60, .final none 0 0 true 16⟩
      ∧ UsedEntry.expired usedThree.uptime ⟨3, 60, .final none 0 0 true 16⟩ = false)
    ∧ UsedEntry.expired (atMs 60000 usedThree).uptime ⟨3, 60, .final none 0 0 true 16⟩ = true
    ∧ (∀ pl, Executes (asked .a 0x31 pl referred) .a 0x31 .operator pl)
    ∧ (referralOf referred.refs.opened 4 = some referral ∧ referralOf referred.refs.opened 5 = none)
    ∧ (∀ pl, Executes (asked .a 0x60 pl recorded) .a 0x60 .operator pl)
    ∧ ((∀ q ∈ recorded.recs.records, q.seq ≠ beVal [0, 1]) ∧ recorded.recs.records = [record 65535] ++ record 0 :: []
      ∧ (∀ x ∈ [record 65535], x.seq ≠ beVal [0, 0]) ∧ (record 0).seq = beVal [0, 0])
    ∧ (∀ pl, Executes (asked .a 0x71 pl plain) .a 0x71 .operator pl)
    ∧ (plain.cfg.params.get (32 : Byte).toNat = none ∧ plain.cfg.params.get (31 : Byte).toNat = some 30
      ∧ plain.cfg.params.get (3 : Byte).toNat = some 5 ∧ plain.cfg.params.get (2 : Byte).toNat = some 64) := by
  refine ⟨fun _ => executes_op _ _ _ ⟨rfl, rfl⟩, ?_, ?_, ?_, fun _ => executes_op _ _ _ ⟨rfl, rfl⟩, ?_,
    fun _ => executes_op _ _ _ ⟨rfl, rfl⟩, ?_, fun _ => executes_op _ _ _ ⟨rfl, rfl⟩, ?_⟩ <;> decide +kernel

/-- A port whose two highest kinds are pending, the first of them masked; and one with nothing enabled. -/
def masked : State := { plain with portA := { plain.portA with
  pending := { EventFlags.restarted with dockFault := true }, enabled := { EventFlags.none with dockFault := true } } }

theorem witness_events :
    (∀ b, Executes (asked .a 0x04 [b] plain) .a 0x04 .both [b] ∧ Executes (asked .a 0x06 [b] plain) .a 0x06 .both [b])
    ∧ Executes (asked .a 0x05 [] masked) .a 0x05 .both []
    ∧ ((masked.port .a).kinds[2]? = some .dockFault ∧ (masked.port .a).pending.get .dockFault = true
      ∧ (masked.port .a).enabled.get .dockFault = true
      ∧ (∀ m < 2, ∀ j, (masked.port .a).kinds[m]? = some j →
          ((masked.port .a).pending.get j && (masked.port .a).enabled.get j) = false))
    ∧ (Executes (asked .a 0x05 [] (after (.clearEvents .a) (asked .a 0x06 [1] plain))) .a 0x05 .both []
      ∧ ((after (.clearEvents .a) (asked .a 0x06 [1] plain)).port .a).attn = false) := by
  refine ⟨fun b => ⟨executes_both _ _ _ _ rfl, executes_both _ _ _ _ rfl⟩, executes_both _ _ _ _ rfl,
    ⟨rfl, rfl, rfl, ?_⟩, executes_both _ _ _ _ rfl, by decide +kernel⟩
  intro m hm j
  match m, hm with
  | 0, _ => intro h; cases h; rfl
  | 1, _ => intro h; cases h; rfl

/-- Entries with tags 0 to n - 1, each owing 3. -/
def crowd (n : Nat) : State :=
  { plain with pres := { plain.pres with entries := (List.range n).map (fun i => queued (BitVec.ofNat 8 i) (bareToken 1 1 0 1 0)) } }

theorem witness_present :
    (∀ n, Executes (asked .b 0x10 (15 :: (bareToken 2 1 0 1 0).bytes) (crowd n)) .b 0x10 .rider (15 :: (bareToken 2 1 0 1 0).bytes))
    ∧ (bareToken 2 1 0 1 0).bytes.length = 24
    ∧ (∃ e ∈ (crowd 16).pres.entries, e.tag = 15)
    ∧ ((∀ e ∈ (crowd 16).pres.entries, e.tag ≠ 16) ∧ 16 ≤ (crowd 16).pres.entries.length)
    ∧ ((∀ e ∈ (crowd 15).pres.entries, e.tag ≠ 15) ∧ (crowd 15).pres.entries.length < 16
      ∧ (crowd 15).pres.results.length + owedTotal (crowd 15).pres.entries ≤ 45)
    ∧ (let s := { crowd 15 with pres := { (crowd 15).pres with results := [plainResult 1 .referred none none none none] } }
      s.pres.entries.length < 16 ∧ 45 < s.pres.results.length + owedTotal s.pres.entries) := by
  refine ⟨fun _ => executes_rider _ _ _ ⟨rfl, rfl⟩, ?_, ?_, ?_, ?_, ?_⟩ <;> decide +kernel

theorem witness_read_result :
    Executes (asked .b 0x11 [] plain) .b 0x11 .rider [] ∧ plain.pres.results = []
    ∧ (after (.referralDeadline 4) (atMs 6000 referred)).pres.results = [plainResult 23 .final (some .refused) (some .timedOut) none none] :=
  ⟨executes_rider _ _ _ ⟨rfl, rfl⟩, rfl, by decide +kernel⟩

/-- An entry RELEASING before two QUEUED ones. -/
def waitingEntries : State :=
  { rush with pres := { rush.pres with entries := [releasing 20 2] ++ queued 21 (bareToken 2 1 0 1 0) :: [queued 22 (bareToken 3 1 0 1 0)] } }

theorem witness_admission_start :
    waitingEntries.pres.entries = [releasing 20 2] ++ queued 21 (bareToken 2 1 0 1 0) :: [queued 22 (bareToken 3 1 0 1 0)]
    ∧ (∀ x ∈ [releasing 20 2], x.stage ≠ .queued ∧ x.tag ≠ (queued 21 (bareToken 2 1 0 1 0)).tag)
    ∧ (∀ x ∈ [queued 22 (bareToken 3 1 0 1 0)], x.tag ≠ (queued 21 (bareToken 2 1 0 1 0)).tag)
    ∧ (queued 21 (bareToken 2 1 0 1 0)).stage = .queued ∧ waitingEntries.pres.admission = none
    ∧ waitingEntries.tokens.changes = [] := by decide +kernel

/-- What the steps of an admission answer, tested on the pair that they give. -/
theorem refused_of {x : State × Except Reason Verdict} (h : x.2.toOption.isNone = true) : ∃ why s1, x = (s1, .error why) := by
  obtain ⟨s, r⟩ := x
  cases r with
  | error w => exact ⟨w, s, rfl⟩
  | ok v => simp [Except.toOption] at h

theorem passed_of {x : State × Except Reason Verdict} {f : State → Verdict → Bool}
    (h : (x.2.toOption.any (f x.1)) = true) : ∃ v s1, x = (s1, .ok v) ∧ f s1 v = true := by
  obtain ⟨s, r⟩ := x
  cases r with
  | error w => simp [Except.toOption] at h
  | ok v => exact ⟨v, s, rfl, by simpa [Except.toOption] using h⟩

/-- The steps of an admission, as ADMISSION_COMPLETE takes them. -/
def stepsOf (k : Token) (s : State) : State × Except Reason Verdict :=
  ({ admitting 21 k s with pres := { (admitting 21 k s).pres with admission := none } }).admissionSteps (s.heldInputs 21) k

/-- Tokens for the three ends of an admission: serial 0 is malformed; offline allowed; not allowed. -/
def badToken : Token := token 0 1 0 1 0
def goodToken : Token := token 500101 1 0 1 0
def sentToken : Token := token 500103 1 1 0 0

theorem witness_admission_refused :
    (∃ e, (admitting 21 badToken rush).pres.admission = some (rush.heldInputs 21)
      ∧ (admitting 21 badToken rush).entry 21 = some e ∧ e.token = some badToken ∧ e.owed ≠ 0)
    ∧ ∃ why s1, stepsOf badToken rush = (s1, .error why) :=
  ⟨⟨_, rfl, rfl, rfl, nofun⟩, refused_of (by decide +kernel)⟩

theorem witness_admission_offline : ∃ v s1, stepsOf goodToken rush = (s1, .ok v)
    ∧ (s1.goesOffline goodToken v && (admitting 21 goodToken rush).slotTest && !v.reserved) = true :=
  passed_of (f := fun s1 v => s1.goesOffline goodToken v && (admitting 21 goodToken rush).slotTest && !v.reserved) (by decide +kernel)

theorem witness_admission_referred : ∃ v s1, stepsOf sentToken rush = (s1, .ok v)
    ∧ (!s1.goesOffline sentToken v && decide ((admitting 21 sentToken rush).refs.link = .up)
        && decide ((admitting 21 sentToken rush).refs.opened.length < 8)) = true :=
  passed_of (f := fun s1 v => !s1.goesOffline sentToken v && decide ((admitting 21 sentToken rush).refs.link = .up)
        && decide ((admitting 21 sentToken rush).refs.opened.length < 8)) (by decide +kernel)

/-- A sync whose age is just above its lifetime, at the last second that can be counted from. -/
def aged : State := { atMs 604801000 plain with clock := { (atMs 604801000 plain).clock with sync := .current, refillsDue := 1 } }

theorem witness_clock :
    Executes (asked .a 0x20 [1, 2, 3, 4] plain) .a 0x20 .operator [1, 2, 3, 4]
    ∧ (atMs 4294967294999 plain).uptime < Config.max32
    ∧ (aged.clock.sync = .current ∧ aged.cfg.params.syncLifetime < aged.uptime - aged.clock.lastSync)
    ∧ 0 < aged.clock.refillsDue :=
  ⟨executes_op _ _ _ ⟨rfl, rfl⟩, by decide +kernel, by decide +kernel, by decide +kernel⟩

/-- The two premises of the statements that a row belongs to the OPERATOR role. -/
theorem witness_operator_only (code : Byte) (payload : List Byte) :
    (((asked .b code payload plain).port .b).next = some ⟨code, payload⟩ ∧ ((asked .b code payload plain).port .b).role = some .rider)
    ∧ (((asked .a code payload loading).port .a).next = some ⟨code, payload⟩
      ∧ ((asked .a code payload loading).port .a).role ≠ some .rider ∧ (asked .a code payload loading).cfg.ready = false) :=
  ⟨⟨rfl, rfl⟩, rfl, nofun, rfl⟩

/-- Both keys present. -/
def twoKeys : State := { rush with tokens := { rush.tokens with next := ⟨true, 8, key7⟩ } }

theorem witness_keys :
    (∀ pl, Executes (asked .a 0x21 pl rush) .a 0x21 .operator pl ∧ Executes (asked .a 0x22 pl twoKeys) .a 0x22 .operator pl
      ∧ Executes (asked .a 0x21 pl plain) .a 0x21 .operator pl)
    ∧ key7.length = 8 ∧ (rush.tokens.current.present = true ∧ rush.tokens.current.generation = 7)
    ∧ ¬ (plain.tokens.current.present = true ∧ plain.tokens.current.generation = 0)
    ∧ rush.tokens.next.present = false ∧ twoKeys.tokens.next.present = true :=
  ⟨fun _ => ⟨executes_op _ _ _ ⟨rfl, rfl⟩, executes_op _ _ _ ⟨rfl, rfl⟩, executes_op _ _ _ ⟨rfl, rfl⟩⟩, by decide +kernel⟩

/-- A station with a load open. -/
def opened (announced : Nat) (rs : List SerialRange) : State :=
  { plain with tokens := { plain.tokens with load := .opened ⟨12, announced, rs⟩ } }

/-- A commit of a load of announced count 0, whose replacement runs. -/
def emptying : State := after .revocationReplacementStart (after (.commitRevocationLoad .a) (asked .a 0x25 [] (opened 0 [])))

theorem witness_begin_load :
    (∀ pl s, s = plain ∨ s = opened 4 [⟨50, 60⟩] ∨ s = committed → Executes (asked .a 0x23 pl s) .a 0x23 .operator pl)
    ∧ (1024 < (4 : Byte).toNat * 256 + (1 : Byte).toNat ∧ (4 : Byte).toNat * 256 + (0 : Byte).toNat ≤ 1024)
    ∧ committed.tokens.load = .committing ⟨12, 1, [⟨50, 60⟩]⟩
    ∧ (∀ l, plain.tokens.load ≠ .committing l) ∧ (∀ l, (opened 4 [⟨50, 60⟩]).tokens.load ≠ .committing l)
    ∧ (Executes (asked .a 0x25 [] (opened 0 [])) .a 0x25 .operator [] ∧ (opened 0 []).tokens.load = .opened ⟨12, 0, []⟩)
    ∧ (emptying.tokens.load = .committing ⟨12, 0, []⟩ ∧ emptying.tokens.changes = .replacement .a :: []
      ∧ emptying.tokens.replacing = true) := by
  refine ⟨?_, by decide +kernel, by decide +kernel, nofun, nofun, ⟨executes_op _ _ _ ⟨rfl, rfl⟩, rfl⟩, by decide +kernel⟩
  rintro pl s (h | h | h) <;> subst h <;> exact executes_op _ _ _ ⟨rfl, rfl⟩

theorem witness_abandon :
    (∀ s, s = plain ∨ s = opened 4 [⟨50, 60⟩] ∨ s = committed → Executes (asked .a 0x26 [] s) .a 0x26 .operator [])
    ∧ plain.tokens.load = .none ∧ (opened 4 [⟨50, 60⟩]).tokens.load = .opened ⟨12, 4, [⟨50, 60⟩]⟩
    ∧ committed.tokens.load = .committing ⟨12, 1, [⟨50, 60⟩]⟩ := by
  refine ⟨?_, rfl, rfl, by decide +kernel⟩
  rintro s (h | h | h) <;> subst h <;> exact executes_op _ _ _ ⟨rfl, rfl⟩

/-- Counts 0, 1, 8 and 9; a range in order, one that touches, and one beyond the announced count. -/
theorem witness_add_ranges :
    (∀ pl n rs, Executes (asked .a 0x24 pl (opened n rs)) .a 0x24 .operator pl)
    ∧ (∀ pl, Executes (asked .a 0x24 pl plain) .a 0x24 .operator pl) ∧ (∀ l, plain.tokens.load ≠ .opened l)
    ∧ ((0 : Byte).toNat < 1 ∧ 8 < (9 : Byte).toNat ∧ 1 ≤ (1 : Byte).toNat ∧ (8 : Byte).toNat ≤ 8)
    ∧ ((be32 302 ++ be32 400).length = 8 * (1 : Byte).toNat ∧ (List.replicate 64 (0 : Byte)).length = 8 * (8 : Byte).toNat)
    ∧ ((opened 2 [⟨100, 300⟩]).tokens.load.ordered ∧ (opened 1 [⟨100, 300⟩]).tokens.load.ordered)
    ∧ (rangesFrom 0 (([⟨100, 300⟩] : List SerialRange) ++ carriedRanges (1 :: (be32 302 ++ be32 400)) 1) = true
      ∧ (([⟨100, 300⟩] : List SerialRange) ++ carriedRanges (1 :: (be32 302 ++ be32 400)) 1).length ≤ 2)
    ∧ ¬ (rangesFrom 0 (([⟨100, 300⟩] : List SerialRange) ++ carriedRanges (1 :: (be32 301 ++ be32 400)) 1) = true
      ∧ (([⟨100, 300⟩] : List SerialRange) ++ carriedRanges (1 :: (be32 301 ++ be32 400)) 1).length ≤ 2)
    ∧ ¬ (rangesFrom 0 (([⟨100, 300⟩] : List SerialRange) ++ carriedRanges (1 :: (be32 302 ++ be32 400)) 1) = true
      ∧ (([⟨100, 300⟩] : List SerialRange) ++ carriedRanges (1 :: (be32 302 ++ be32 400)) 1).length ≤ 1) := by
  refine ⟨fun _ _ _ => executes_op _ _ _ ⟨rfl, rfl⟩, fun _ => executes_op _ _ _ ⟨rfl, rfl⟩, nofun, ?_, ?_,
    ⟨⟨?_, ?_, ?_⟩, ⟨?_, ?_, ?_⟩⟩, ?_, ?_, ?_⟩ <;> decide +kernel

theorem witness_commit :
    (∀ s, s = plain ∨ s = opened 2 [⟨50, 60⟩] ∨ s = opened 1 [⟨50, 60⟩] → Executes (asked .a 0x25 [] s) .a 0x25 .operator [])
    ∧ (∀ l, plain.tokens.load ≠ .opened l)
    ∧ ([(⟨50, 60⟩ : SerialRange)].length < 2 ∧ 1 ≤ [(⟨50, 60⟩ : SerialRange)].length)
    ∧ (committed.tokens.changes = .replacement .a :: [] ∧ committed.pres.admission = none ∧ committed.tokens.replacing = false)
    ∧ (let t := after .revocationReplacementStart committed
      t.tokens.changes = .replacement .a :: [] ∧ t.tokens.load = .committing ⟨12, 1, [⟨50, 60⟩]⟩ ∧ t.tokens.replacing = true) := by
  refine ⟨?_, nofun, ?_, ?_, ?_⟩
  · rintro s (h | h | h) <;> subst h <;> exact executes_op _ _ _ ⟨rfl, rfl⟩
  all_goals decide +kernel

/-- An insertion that waits, in the list at its capacity and in a short one. -/
def inserting (serial : Nat) (rs : List SerialRange) : State :=
  { plain with tokens := { plain.tokens with active := rs, changes := [.insertion .a serial] } }

theorem witness_revoke :
    (∀ pl, Executes (asked .a 0x27 pl plain) .a 0x27 .operator pl)
    ∧ (beVal [0, 0, 0, 0] = 0 ∧ beVal [0, 0, 0, 1] ≠ 0 ∧ [(0 : Byte), 0, 0, 1].length = 4) :=
  ⟨fun _ => executes_op _ _ _ ⟨rfl, rfl⟩, by decide +kernel⟩

set_option maxRecDepth 20000 in
/-- 1,024 ranges up to 4,094, and a serial that none covers or touches; and the same serial in a list of 1,023. -/
theorem witness_insertion :
    ((inserting 4096 brimRanges).tokens.changes = .insertion .a 4096 :: [] ∧ (inserting 4096 brimRanges).pres.admission = none
      ∧ (inserting 4096 brimRanges).listsOrdered)
    ∧ ((inserting 4096 brimRanges).tokens.active.length = 1024 ∧ revoked (inserting 4096 brimRanges).tokens.active 4096 = false
      ∧ (∀ r ∈ (inserting 4096 brimRanges).tokens.active, r.high + 1 ≠ 4096 ∧ 4096 + 1 ≠ r.low))
    ∧ ((inserting 4096 (brimRanges.take 1023)).listsOrdered ∧ (inserting 4096 (brimRanges.take 1023)).tokens.active.length < 1024) := by
  refine ⟨⟨rfl, rfl, ⟨⟨?_, ?_⟩, trivial⟩⟩, ?_, ⟨⟨?_, ?_⟩, trivial⟩, ?_⟩ <;> decide +kernel

/-! Referrals -/

def fetched : State := after (.nextReferral .a) (asked .a 0x30 [] referred)

theorem witness_next_referral :
    Executes (asked .a 0x30 [] referred) .a 0x30 .operator [] ∧ Executes (asked .a 0x30 [] fetched) .a 0x30 .operator []
    ∧ (referred.refs.opened = [] ++ referral :: [] ∧ referral.fetched = false) ∧ ∀ r ∈ fetched.refs.opened, r.fetched = true :=
  ⟨executes_op _ _ _ ⟨rfl, rfl⟩, executes_op _ _ _ ⟨by decide +kernel, by decide +kernel⟩, by decide +kernel, by decide +kernel⟩

/-- An answer for a serial, with its decision and its validity. -/
def answerTo (serial : Nat) (decision : Byte) (validity : Nat) : List Byte := [4] ++ be32 serial ++ [decision] ++ be16 validity

theorem witness_answer_referral :
    (∀ pl, Executes (asked .a 0x32 pl referred) .a 0x32 .operator pl)
    ∧ ((answerTo 500103 3 60).length = 8 ∧ byteAt (answerTo 500103 3 60) 5 ≠ 1 ∧ byteAt (answerTo 500103 3 60) 5 ≠ 2)
    ∧ (byteAt (answerTo 500104 1 60) 5 = 1 ∧ 60 ≤ fieldVal (answerTo 500104 1 60) 6 2 ∧ fieldVal (answerTo 500104 1 14400) 6 2 ≤ 14400)
    ∧ ((referralOf referred.refs.opened (byteAt (answerTo 500104 1 60) 0)).all
        (fun r => decide (r.token.serial ≠ fieldVal (answerTo 500104 1 60) 1 4))) = true
    ∧ (byteAt (answerTo 500103 2 0) 5 = 2 ∧ byteAt (answerTo 500103 2 0) 0 = referral.id
      ∧ fieldVal (answerTo 500103 2 0) 1 4 = referral.token.serial)
    ∧ (∃ e, referralOf referred.refs.opened referral.id = some referral ∧ referred.entry referral.tag = some e
      ∧ e.referral = some referral.id ∧ e.dock = none ∧ e.slotReserved = false ∧ e.creditCharged = 0 ∧ e.owed ≠ 0)
    ∧ referred.creditBounded ∧ referral.deadline ≤ (atMs 6000 referred).clock.ms := by
  refine ⟨fun _ => executes_op _ _ _ ⟨rfl, rfl⟩, by decide +kernel, by decide +kernel, by decide +kernel, by decide +kernel,
    ⟨_, rfl, rfl, rfl, rfl, rfl, rfl, nofun⟩, ?_, by decide +kernel⟩
  show _ ≤ _
  decide +kernel

theorem witness_approval :
    Executes (asked .a 0x32 (answerTo 500103 1 60) referred) .a 0x32 .operator (answerTo 500103 1 60)
    ∧ ((answerTo 500103 1 60).length = 8 ∧ byteAt (answerTo 500103 1 60) 0 = referral.id
      ∧ fieldVal (answerTo 500103 1 60) 1 4 = referral.token.serial ∧ byteAt (answerTo 500103 1 60) 5 = 1
      ∧ fieldVal (answerTo 500103 1 60) 6 2 = 60)
    ∧ (∃ e, (asked .a 0x32 (answerTo 500103 1 60) referred).entry referral.tag = some e ∧ e.summary.reservation = 0
      ∧ (asked .a 0x32 (answerTo 500103 1 60) referred).select e.summary.rider e.summary.wanted none = some 2)
    ∧ (asked .a 0x32 (answerTo 500103 1 60) referred).slotTest = true :=
  ⟨executes_op _ _ _ ⟨rfl, rfl⟩, by decide +kernel, ⟨_, rfl, by decide +kernel, by decide +kernel⟩, by decide +kernel⟩

theorem witness_link_state :
    (∀ b s, s = referred ∨ s = plain → Executes (asked .a 0x33 [b] s) .a 0x33 .operator [b])
    ∧ plain.refs.link = .down ∧ referred.refs.link = .up
    ∧ (∀ r ∈ referred.refs.opened, (referred.entry r.tag).any (fun e => decide (e.referral = some r.id)) = true)
    ∧ ((0 : Byte) ≠ 1 ∧ (0 : Byte) ≠ 2 ∧ (3 : Byte) ≠ 1 ∧ (3 : Byte) ≠ 2) := by
  refine ⟨?_, rfl, rfl, by decide +kernel, by decide +kernel⟩
  rintro b s (h | h) <;> subst h <;> exact executes_op _ _ _ ⟨rfl, rfl⟩

/-! Reservations -/

/-- A request to place code 7701 for some seconds. -/
def placing (seconds : Nat) (kind target : Byte) : List Byte := be32 7701 ++ be16 seconds ++ [kind, target]

/-- A table of 16 reservations, the first HELD. -/
def fullTable : State := { held with resv := held.resv ++ List.replicate 15 (⟨1, 4, .standard, 0, some .expired, 0⟩ : Reservation) }

theorem witness_place :
    (∀ pl s, s = held ∨ s = fullTable ∨ s = claimed 21 4 .claimed 10000 held ∨ s = plain → Executes (asked .a 0x40 pl s) .a 0x40 .operator pl)
    ∧ ((placing 60 2 1).length = 8 ∧ fieldVal (placing 60 2 1) 0 4 ≠ 0 ∧ 60 ≤ fieldVal (placing 60 2 1) 4 2
      ∧ fieldVal (placing 3600 2 1) 4 2 ≤ 3600)
    ∧ (fieldVal (be32 0 ++ be16 60 ++ [2, 1]) 0 4 = 0 ∧ fieldVal (placing 59 2 1) 4 2 < 60 ∧ 3600 < fieldVal (placing 3601 2 1) 4 2)
    ∧ (held.placeTarget 1 0 = none ∧ held.placeTarget 2 3 = none ∧ held.placeTarget 1 64 = some (.byDock 63)
      ∧ held.placeTarget 2 1 = some (.byKind .standard))
    ∧ (heldEntry held.resv (fieldVal (be32 7700 ++ be16 60 ++ [2, 1]) 0 4)).isSome = true
    ∧ (heldEntry fullTable.resv 7701 = none ∧ 16 ≤ fullTable.resv.length) ∧ (heldEntry held.resv 7701 = none ∧ held.resv.length < 16)
    ∧ ((held.dock 2).heldBy.isSome = true ∧ ((claimed 21 4 .claimed 10000 held).dock 4).state.inRelease = true)
    ∧ ((held.dock 0).heldBy = none ∧ (held.dock 0).state.inRelease = false ∧ held.releaseReady 0 = false)
    ∧ plain.chooseByKind .standard = none
    ∧ (held.releaseReady 4 = true ∧ (held.dock 4).bike.map Bike.kind = some .standard) ∧ held.chooseByKind .standard = some 4 := by
  refine ⟨?_, ?_, ?_, ?_, ?_, ?_, ?_, ?_, ?_, ?_, ?_, ?_⟩
  · rintro pl s (h | h | h | h) <;> subst h <;> exact executes_op _ _ _ ⟨by decide +kernel, by decide +kernel⟩
  all_goals decide +kernel

theorem witness_cancel :
    (∀ pl, Executes (asked .a 0x41 pl held) .a 0x41 .operator pl ∧ Executes (asked .a 0x42 [] held) .a 0x42 .operator [])
    ∧ ((be32 7700).length = 4 ∧ beVal (be32 7700) ≠ 0 ∧ (be32 0).length = 4 ∧ beVal (be32 0) = 0) ∧ (heldEntry held.resv (beVal (be32 7700))).isSome = true
    ∧ heldEntry held.resv (beVal (be32 7701)) = none ∧ (heldCodes held.resv).Nodup ∧ held.reservationsDistinct := by
  refine ⟨fun _ => ⟨executes_op _ _ _ ⟨rfl, rfl⟩, executes_op _ _ _ ⟨rfl, rfl⟩⟩, ?_, ?_, ?_, ?_, ⟨?_, ?_⟩⟩ <;> decide +kernel

/-- At 600 s the reservation of dock 3 runs out, and dock 5 has none. -/
theorem witness_expiry : (atMs 600000 held).reservationsDistinct
    ∧ (∃ r ∈ (atMs 600000 held).resv, r.ended = none ∧ r.expiry ≤ (atMs 600000 held).uptime ∧ r.dock = 2)
    ∧ (∀ r ∈ (atMs 600000 held).resv, r.ended = none → r.expiry ≤ (atMs 600000 held).uptime → r.dock ≠ 4)
    ∧ (∀ r ∈ (atMs 599999 held).resv, r.ended = none → r.expiry ≤ (atMs 599999 held).uptime → r.dock ≠ 2) := by
  refine ⟨⟨?_, ?_⟩, ?_, ?_, ?_⟩ <;> decide +kernel

/-! Docks and releases -/

/-- Dock 3 in a state. -/
def inState (x : DockState) : State := rush.setDock 2 { rush.dock 2 with state := x }

theorem witness_dock_service :
    (∀ (x : DockState) (n b : Byte), Executes (asked .a 0x50 [n] (inState x)) .a 0x50 .operator [n]
      ∧ Executes (asked .a 0x51 [n, b] (inState x)) .a 0x51 .operator [n, b])
    ∧ (inState .fault).dockInUse? (3 : Byte).toNat = some 2
    ∧ ((inState .fault).dockInUse? (0 : Byte).toNat = none ∧ (inState .fault).dockInUse? (65 : Byte).toNat = none
      ∧ (0 : Byte) ≠ 1 ∧ (0 : Byte) ≠ 2 ∧ (3 : Byte) ≠ 1 ∧ (3 : Byte) ≠ 2)
    ∧ ((inState .fault).dock 2).state = .fault ∧ ((inState .docked).dock 2).state ≠ .fault
    ∧ ((inState .outOfService).dock 2).state = .outOfService ∧ ((inState .fault).dock 2).state ≠ .outOfService
    ∧ (((inState .claimed).dock 2).state.inRelease = true ∧ ((inState .relock).dock 2).state.inRelease = true)
    ∧ (((inState .docked).dock 2).state.inRelease = false ∧ ((inState .docked).dock 2).state ≠ .outOfService) :=
  ⟨fun _ _ _ => ⟨executes_op _ _ _ ⟨rfl, rfl⟩, executes_op _ _ _ ⟨rfl, rfl⟩⟩, by decide +kernel⟩

/-- The reservation of dock 3 moves to dock 5, the one other dock with a standard bike, with a moved count below and at 255; where
dock 5 cannot give up its bike there is none. A dock OUT, a SERVICE claim and a lost link are ways to lose the hold. -/
def heldMoved (n : Nat) : State := { held with resv := held.resv.map (fun r => { r with moved := n }) }
def alone : State := held.setDock 4 { held.dock 4 with state := .empty }

theorem only_dock5 : (∀ y : DockId, y ≠ 2 → y ≠ 4 → (held.dock y).state = .docked → (held.dock y).bike.map Bike.kind = some .electric)
    ∧ (∀ y : DockId, y ≠ 2 → (alone.dock y).state = .docked → (alone.dock y).bike.map Bike.kind = some .electric) := by decide +kernel

theorem witness_holds :
    (∀ n ∈ [0, 254, 255], ∀ s, s = heldMoved n → (s.dock 2).heldBy = some 7700
      ∧ heldEntry s.resv 7700 = some ⟨7700, 2, .standard, 600, none, n⟩
      ∧ s.offers 4 ⟨.standard, some 105, 15400, none, none⟩
      ∧ ∀ y c, y ≠ 2 → y ≠ 4 → s.offers y c → c.kind = .standard → kindOrder .standard 4 ⟨.standard, some 105, 15400, none, none⟩ y c)
    ∧ ((alone.dock 2).heldBy = some 7700 ∧ (heldEntry alone.resv 7700).isSome = true
      ∧ ∀ y c, y ≠ 2 → alone.offers y c → c.kind ≠ .standard)
    ∧ (∀ s ∈ [held, alone], Executes (asked .a 0x51 [3, 1] s) .a 0x51 .operator [3, 1]
      ∧ Executes (asked .a 0x55 [3] s) .a 0x55 .operator [3] ∧ s.dockInUse? (3 : Byte).toNat = some 2
      ∧ (s.dock 2).state = .docked ∧ s.linked 2 = true ∧ s.slotTest = true) := by
  refine ⟨fun n hn s hs => ?_, ⟨rfl, rfl, fun y c h2 ho hk => ?_⟩, fun s hs => ?_⟩
  · subst hs
    refine ⟨rfl, by revert n; decide +kernel, ⟨show (4 : DockId).val < held.cfg.params.dockCount by decide +kernel, rfl, rfl, rfl, rfl, rfl⟩,
      fun y c h2 h4 ho hk => ?_⟩
    have h := only_dock5.1 y h2 h4 ho.2.1
    rw [show (held.dock y).bike = some c from ho.2.2.2.1] at h
    simp [hk] at h
  · have h := only_dock5.2 y h2 ho.2.1
    rw [ho.2.2.2.1] at h
    simp [hk] at h
  · simp only [List.mem_cons, List.not_mem_nil, or_false] at hs
    rcases hs with h | h <;> subst h <;> exact ⟨executes_op _ _ _ ⟨rfl, rfl⟩, executes_op _ _ _ ⟨rfl, rfl⟩, by decide +kernel⟩

/-- The station with some record slots reserved. -/
def reserving (n : Nat) : State := { rush with recs := { rush.recs with reserved := n } }

theorem witness_service_release :
    (∀ k n, Executes (asked .a 0x55 [n] (reserving k)) .a 0x55 .operator [n])
    ∧ ((reserving 111).dockInUse? (0 : Byte).toNat = none ∧ (reserving 111).dockInUse? (65 : Byte).toNat = none)
    ∧ ((reserving 111).dockInUse? (3 : Byte).toNat = some 2 ∧ (reserving 111).dockInUse? (1 : Byte).toNat = some 0)
    ∧ ¬ (((reserving 111).dock 0).state = .docked ∧ (reserving 111).linked 0 = true)
    ∧ (((reserving 112).dock 2).state = .docked ∧ (reserving 112).linked 2 = true
      ∧ 112 ≤ (reserving 112).recs.records.length + (reserving 112).recs.reserved)
    ∧ (((reserving 111).dock 2).state = .docked ∧ (reserving 111).linked 2 = true
      ∧ (reserving 111).recs.records.length + (reserving 111).recs.reserved < 112) :=
  ⟨fun _ _ => executes_op _ _ _ ⟨rfl, rfl⟩, by decide +kernel⟩

/-- A head that can just be granted: one slot of two free, and H = 1,500 - 1,320 - 90 = 90 = P_latch. -/
def grantable : State :=
  let s := (claimed 21 2 .claimed 10000 rush).setChg 8 { Charge.reset with counted := 1320 }
  { s with rel := { s.rel with grantQ := [2], pulses := 1 } }

theorem witness_latch_grant : grantable.rel.grantQ = 2 :: [] ∧ grantable.rel.pulses < grantable.cfg.params.lSlots
    ∧ (grantable.cfg.params.pLatch : Int) ≤ grantable.headroom ∧ grantable.linked 2 = true := by decide +kernel

/-- A dock with a claim owner or none and no hold, whose presentation is live; and no record is owed, or no slot is free. -/
def Claims (s : State) (d : DockId) (o : Option Owner) : Prop :=
  (s.dock d).owner = o ∧ (s.dock d).heldBy = none
    ∧ (match o with | some (.tag g) => (s.entry g).any (fun e => decide (e.owed ≠ 0)) | _ => true) = true
    ∧ (s.freeSlots = 0 ∨ ∀ y, (s.dock y).owed = none)

theorem Claims.owned {s : State} {d : DockId} {o : Option Owner} (h : Claims s d o) :
    OwnedBy s d o ∧ (s.dock d).heldBy = none ∧ s.owedOnlyWhenFull := by
  refine ⟨⟨h.1, fun g hg => ?_⟩, h.2.1, fun ⟨y, hy⟩ => h.2.2.2.elim id (fun hn => by simp [hn y] at hy)⟩
  have hm := h.2.2.1
  subst hg
  simp only [Option.any_eq_true, decide_eq_true_eq] at hm
  exact hm

/-- The owners of a claim. -/
def claimants : List (Option Owner) := [some (.tag 21), some .service]

/-- Dock 3 with another owner. -/
def ownedBy (o : Option Owner) (s : State) : State := s.setDock 2 { s.dock 2 with owner := o }

/-- Every slot taken, one of them reserved, and a record owed by dock 9. -/
def takenUp (s : State) : State :=
  let s1 := s.setDock 8 { s.dock 8 with owed := some (s.tripRecord .anomaly 8 none none) }
  { s1 with recs := { s1.recs with records := List.replicate 127 (record 7), reserved := 1 } }

/-- A deadline of dock 3 that is reached to the millisecond, with a number of attempts. -/
def onTime (stage : DockState) (attempts : Nat) : State :=
  let s := atMs 10000 (claimed 21 2 stage 10000 rush)
  s.setDock 2 { s.dock 2 with attempts := attempts }

theorem witness_stage_deadlines :
    (∀ stage n, ((onTime stage n).dock 2).deadline = some 10000 ∧ 10000 ≤ (onTime stage n).clock.ms
      ∧ ((onTime stage n).dock 2).state = stage ∧ ((onTime stage n).dock 2).owner = some (.tag 21)
      ∧ (onTime stage n).entry 21 = some (releasing 21 2) ∧ (releasing 21 2).owed ≠ 0)
    ∧ (((onTime .unlatching 1).dock 2).attempts ≤ (onTime .unlatching 1).cfg.params.latchRetries
      ∧ (onTime .unlatching 2).cfg.params.latchRetries < ((onTime .unlatching 2).dock 2).attempts)
    ∧ ((onTime .pickup 1).staleRuns 2 = false ∧ (onTime .pickup 1).linked 2 = true)
    ∧ ∀ o ∈ claimants, ∀ x ∈ [DockState.claimed, .unlatching], Claims (ownedBy o (onTime x 2)) 2 o
      ∧ Claims (takenUp (ownedBy o (onTime x 2))) 2 o ∧ ((takenUp (ownedBy o (onTime x 2))).dock 8).owed.isSome = true := by
  refine ⟨fun _ _ => ⟨rfl, Nat.le_refl 10000, rfl, rfl, rfl, nofun⟩, ?_, ?_, ?_⟩ <;> (try simp only [Claims]) <;> decide +kernel

/-- Dock 3 in RELOCK with a latch position, and without a claim owner. -/
def relocking (latch : LatchPosition) : State := (onTime .relock 1).setDock 2 { (onTime .relock 1).dock 2 with latch := some latch }
def unowned (latch : LatchPosition) : State := (relocking latch).setDock 2 { (relocking latch).dock 2 with owner := none }

/-- Dock 3 in a stale wait. -/
def stale : State := (onTime .pickup 1).setRel 2 (some { ReleaseState.fresh with stale := some .pickup })

theorem witness_relock_deadlines :
    (∀ x, ((relocking x).dock 2).deadline = some 10000 ∧ 10000 ≤ (relocking x).clock.ms ∧ ((relocking x).dock 2).state = .relock
      ∧ ((relocking x).dock 2).owner = some (.tag 21) ∧ (relocking x).entry 21 = some (releasing 21 2)
      ∧ (relocking x).staleRuns 2 = false ∧ (relocking x).notedFault 2 = none ∧ ((relocking x).dock 2).latch = some x)
    ∧ (∀ x, ((unowned x).dock 2).deadline = some 10000 ∧ 10000 ≤ (unowned x).clock.ms ∧ ((unowned x).dock 2).state = .relock
      ∧ ((unowned x).dock 2).owner = none ∧ (unowned x).notedFault 2 = none ∧ ((unowned x).dock 2).latch = some x)
    ∧ ((stale.dock 2).deadline = some 10000 ∧ 10000 ≤ stale.clock.ms ∧ stale.staleRuns 2 = true
      ∧ (stale.dock 2).owner = some (.tag 21) ∧ stale.entry 21 = some (releasing 21 2) ∧ 0 < stale.recs.reserved) := by
  refine ⟨?_, ?_, by decide +kernel⟩ <;> intro x <;> cases x <;> decide +kernel

/-- A fault noted in the relock, and the claims that a relock and a stale wait are of. -/
def noting (f : NotedFault) (s : State) : State := s.setRel 2 (some { ReleaseState.fresh with noted := some f })

theorem witness_relock_claims :
    (∀ o ∈ none :: claimants, ∀ x ∈ [LatchPosition.closed, .opened], Claims (ownedBy o (relocking x)) 2 o
      ∧ Claims (takenUp (ownedBy o (relocking x))) 2 o
      ∧ (noting ⟨.tagMismatch, ⟨.standardBike, .ok 104⟩⟩ (ownedBy o (relocking x))).notedFault 2
          = some ⟨.tagMismatch, ⟨.standardBike, .ok 104⟩⟩)
    ∧ ∀ o ∈ claimants, Claims (ownedBy o stale) 2 o ∧ (ownedBy o stale).staleRuns 2 = true ∧ o ≠ none := by
  simp only [Claims]; decide +kernel

/-! The line, charging -/

/-- A contract whose offer time is now, and one whose answer deadline is. -/
def offering : State := contract { Charge.reset with contract := some .idle, offerTime := some 0 }
def offered : State := atMs 2000 (contract { Charge.reset with contract := some .offered, answerDeadline := some 2000 })

theorem witness_charge :
    (0 ≤ offering.clock.ms ∧ (offering.chg 8).contract = some .idle ∧ (offering.chg 8).offerTime = some 0
      ∧ offering.lowering 8 = false ∧ offering.linked 8 = true)
    ∧ (2000 ≤ offered.clock.ms ∧ (offered.chg 8).contract = some .offered ∧ (offered.chg 8).answerDeadline = some 2000) := by
  decide +kernel

/-! Records, configuration -/

theorem witness_acknowledge :
    (∀ pl, Executes (asked .a 0x61 pl recorded) .a 0x61 .operator pl)
    ∧ (∀ q ∈ recorded.recs.records, q.seq ≠ beVal [0, 1])
    ∧ (recorded.recs.records = [] ++ record 65535 :: [record 0] ∧ (record 65535).seq = beVal [0xFF, 0xFF])
    ∧ (recorded.recs.records = [record 65535] ++ record 0 :: [] ∧ (∀ x ∈ [record 65535], x.seq ≠ beVal [0, 0])
      ∧ (record 0).seq = beVal [0, 0]) ∧ ∀ d, (recorded.dock d).owed = none := by
  refine ⟨fun _ => executes_op _ _ _ ⟨rfl, rfl⟩, ?_, ?_, ?_, ?_⟩ <;> decide +kernel

/-- A Set Parameter payload. -/
def setting (id : Byte) (v : Nat) : List Byte := id :: be32 v

/-- B_total at the counted sum of 240 W is taken, one below it is refused. -/
theorem witness_parameters :
    (∀ pl, Executes (asked .a 0x70 pl (contract { Charge.reset with counted := 240 })) .a 0x70 .operator pl)
    ∧ (setting 21 9).length = 5 ∧ ((byteAt (setting 1 0) 0).toNat = 1 ∧ (byteAt (setting 2 0) 0).toNat = 2)
    ∧ ((byteAt (setting 0 0) 0).toNat = 0 ∧ 31 < (byteAt (setting 32 0) 0).toNat)
    ∧ ((paramRange 3).isSome ∧ (paramRange 22).isSome ∧ (paramRange 30).isSome ∧ (paramRange 31).isSome)
    ∧ ((paramRange 23).any (fun r =>
        let s := contract { Charge.reset with counted := 240 }
        s.paramRefused 23 (s.cfg.params.clampFor 23 (fieldVal (setting 23 239) 1 4) r)
          && !s.paramRefused 23 (s.cfg.params.clampFor 23 (fieldVal (setting 23 240) 1 4) r)) = true)
    ∧ ((paramRange 29).any (fun r => !plain.paramRefused 29 (plain.cfg.params.clampFor 29 400 r)
        && (contract { Charge.reset with counted := 1 }).paramRefused 29 (plain.cfg.params.clampFor 29 400 r)) = true) :=
  ⟨fun _ => executes_op _ _ _ ⟨rfl, rfl⟩, by decide +kernel⟩

theorem witness_store :
    (∀ pl, Executes (asked .a 0x72 pl plain) .a 0x72 .operator pl)
    ∧ (64 < (65 : Byte).toNat ∧ 2 < (3 : Byte).toNat ∧ (64 : Byte).toNat ≤ 64 ∧ (2 : Byte).toNat ≤ 2)
    ∧ storing.memoryCanonical := ⟨fun _ => executes_op _ _ _ ⟨rfl, rfl⟩, by decide +kernel, rfl⟩

set_option maxRecDepth 20000 in
/-- The image being stored, with its CRC-16, and other bytes read back. -/
theorem witness_store_end : storing.cfg.store.any (fun j =>
    decide (j.image.length = 132) && crc16Ok j.image && decide ([] ≠ j.image)) = true := by decide +kernel

theorem witness_restart : Executes (asked .a 0x73 [] referred) .a 0x73 .operator []
    ∧ (∀ e ∈ plain.tokens.used, e.isFinal = true) ∧ (∀ d, (plain.dock d).owed = none)
    ∧ (referred.creditBounded ∧ (referred.tokens.used.map UsedEntry.isFinal) = [false]) := by
  refine ⟨executes_op _ _ _ ⟨rfl, rfl⟩, nofun, fun d => by simp [plain, State.dock, State.reset, at64, Dock.reset], ?_, rfl⟩
  show _ ≤ _
  decide +kernel

theorem witness_cold_reset : plain.cfg.store = none ∧ storing.cfg.store.isSome = true ∧ storing.memoryCanonical :=
  ⟨rfl, by decide +kernel, rfl⟩

set_option maxRecDepth 20000 in
/-- A load that has ended, one that has not, and an image that is not valid. -/
theorem witness_load : plain.cfg.ready = true ∧ State.reset.cfg.ready = false
    ∧ imageValid (State.reset.loadImage false) = false := ⟨rfl, rfl, by decide +kernel⟩

/-- Requests that wait at the end of a load, alone, before and behind another one, by the test that answers each. -/
theorem witness_waiting_requests :
    (∀ r ∈ [(⟨0x20, [0, 0, 0, 1]⟩ : Request), ⟨0x20, []⟩, ⟨0x11, []⟩, ⟨0x07, []⟩, ⟨0x01, []⟩, ⟨0x02, []⟩, ⟨0x03, []⟩],
      ((loadingWith [r]).port .a).outstanding = [] ++ ⟨r, .waiting⟩ :: []
      ∧ ((loadingWith [⟨0x02, []⟩, r]).port .a).outstanding = [⟨⟨0x02, []⟩, .waiting⟩] ++ ⟨r, .waiting⟩ :: []
      ∧ (loadingWith [r]).cfg.ready = false)
    ∧ ((0x07 : Byte) ∉ requestCodes ∧ requestAccess 0x20 = some .operator ∧ requestAccess 0x11 = some .rider
      ∧ requestAccess 0x01 = some .always ∧ payloadLengthOk 0x20 [] = false ∧ payloadLengthOk 0x20 [0, 0, 0, 1] = true
      ∧ Access.rider.allows ((loadingWith []).port .a).role = false ∧ Access.operator.allows ((loadingWith []).port .a).role = true) := by
  decide +kernel

/-! Reports -/

/-- A report of dock 3 that applies nothing and has no message, and its bytes. -/
def spoken (c : Contents) (latch : LatchPosition) : Report := ⟨c, latch, none, .none, none⟩
def codeBits : ContactCode → Byte × Byte
  | .noBike => (0, 0) | .standardBike => (1, 0) | .electricBike => (1, 1) | .misseated => (0, 1) | .short => (2, 0)
def tagBits : TagStatus → Byte × Nat
  | .none => (0, 0) | .ok n => (1, n) | .conflict => (2, 0)
def said (c : Contents) (latch : LatchPosition) : List Byte :=
  answerBytes 2 (codeBits c.code).1 (codeBits c.code).2 (tagBits c.tag).1 (tagBits c.tag).2 (latch.code - 1) 0xFF 0 0 0xFF

/-- The contents that the witnesses use. -/
def gone : Contents := ⟨.noBike, .none⟩
def sameBike : Contents := ⟨.standardBike, .ok 103⟩
def otherBike : Contents := ⟨.standardBike, .ok 104⟩
def untagged : Contents := ⟨.standardBike, .none⟩
def clash : Contents := ⟨.standardBike, .conflict⟩
def otherKind : Contents := ⟨.electricBike, .ok 103⟩
def nearMiss : Contents := ⟨.misseated, .none⟩
def shorted : Contents := ⟨.short, .none⟩

theorem said_good : ∀ c ∈ [gone, sameBike, otherBike, untagged, clash, otherKind, nearMiss, shorted], ∀ o ∈ [LatchPosition.closed, .opened],
    goodAnswer? 2 (said c o) = some (spoken c o) ∧ (said c o).length = 14 := by decide +kernel

/-- Dock 3 with a record and a link, polled, at the last millisecond of the window. -/
def heard (k : Dock) (l : Link) (s : State) : State := atMs 5 (inWindow 2 .poll ((s.setDock 2 k).setLink 2 l))
def up : Link := ⟨.linked, 0, 0⟩
def polled : Transaction := phased 2 .poll (.window 0)

/-- A good answer with these contents comes to dock 3, and `P` holds then. -/
def Arrival (k : Dock) (l : Link) (s : State) (c : Contents) (o : LatchPosition) (P : State → Transaction → Report → Prop) : Prop :=
  (AnswerArrives (heard k l s) polled (said c o) (spoken c o) ∧ (heard k l s).link 2 = l)
  ∧ P (heard k l s) polled (spoken c o)

theorem arrival {k : Dock} {l : Link} {s : State} {c : Contents} {o : LatchPosition} {P : State → Transaction → Report → Prop}
    (h : s.clock.ms = 0) (hc : c ∈ [gone, sameBike, otherBike, untagged, clash, otherKind, nearMiss, shorted])
    (hp : P (heard k l s) polled (spoken c o)) : Arrival k l s c o P := by
  have hg := said_good c hc o (by cases o <;> simp)
  exact ⟨⟨⟨congrArg (fun n => some (phased 2 .poll (.window n))) h, ⟨0, rfl, Nat.le_refl 5⟩, hg.2, hg.1⟩,
    at64_put64_same _ _ _⟩, hp⟩

/-- On a LINKED dock the report is judged. -/
theorem Arrival.arrives {k : Dock} {s : State} {c : Contents} {o : LatchPosition} {P : State → Transaction → Report → Prop}
    (h : Arrival k up s c o P) : ReportArrives (heard k up s) polled (said c o) (spoken c o) :=
  ⟨h.1.1, by
    have hl := h.1.2
    show decide (((heard k up s).link 2).state = .linked) = true
    rw [hl]; rfl⟩

/-- A dock in a state with a picture and with a candidate that has been seen a number of times. -/
def waits (x : DockState) (picture : Option Contents) (candidate : Contents) (n : Nat) : Dock :=
  { withBike .standard 103 0 none with state := x, picture := picture, candidate := some candidate, count := n }

/-- A dock of a release for tag 21. -/
def released (x : DockState) (candidate : Contents) (n : Nat) : Dock :=
  { waits x (some sameBike) candidate n with
    owner := some (.tag 21), deadline := some 10000, lastSerial := some 500101, attempts := 1 }

theorem witness_reports_counted :
    Arrival (waits .docked (some sameBike) otherBike 1) up rush sameBike .closed (fun s x r =>
      r.contents.code ≠ .short ∧ (r.latch = .closed → (s.dock x.dock).state ≠ .relock) ∧ (s.dock x.dock).steady r.contents)
    ∧ Arrival (waits .docked (some sameBike) otherBike 1) up rush otherBike .closed (fun s x r =>
      ¬ (s.dock x.dock).steady r.contents ∧ (s.dock x.dock).state ≠ .empty
        ∧ (s.dock x.dock).countWith r.contents + 1 = s.cfg.params.confirmAt r.contents)
    ∧ Arrival (waits .empty (some gone) otherBike 0) up rush gone .opened (fun s x r =>
      (s.dock x.dock).state = .empty ∧ r.contents.code = .noBike ∧ (s.dock x.dock).steady r.contents)
    ∧ Arrival (waits .docked none otherBike 0) ⟨.unlinked, 0, 0⟩ rush sameBike .closed (fun s x _ =>
      (s.link x.dock).state ≠ .linked ∧ (s.link x.dock).good + 1 < s.cfg.params.mUp) := by
  refine ⟨arrival rfl (by decide) ?_, arrival rfl (by decide) ?_, arrival rfl (by decide) ?_, arrival rfl (by decide) ?_⟩
  all_goals first | decide +kernel | (simp only [Dock.steady, Dock.countWith]; decide +kernel)

/-- Serial 500101 has taken the bike 103 within the bounce window; and each dock owes a record with no slot free. -/
def bouncing : State := { rush with tokens := { rush.tokens with used := [⟨500101, 900, .final (some 103) 2 0 true 16⟩] } }
def clogged : State := { rush with recs := { rush.recs with reserved := 128 } }

theorem witness_arrivals :
    (∀ x ∈ [DockState.unknown, .empty, .arriving], Arrival (waits x none gone 0) up rush shorted .closed (fun s x r =>
      r.contents.code = .short ∧ (s.dock x.dock).state ≠ .fault ∧ (s.dock x.dock).state ≠ .outOfService))
    ∧ Arrival (waits .empty (some gone) gone 0) up rush sameBike .closed (fun s x r => (s.dock x.dock).state = .empty
      ∧ r.contents.code ≠ .short ∧ r.contents.code ≠ .noBike ∧ 1 < s.cfg.params.confirmAt r.contents)
    ∧ (∀ x ∈ [DockState.unknown, .arriving, .fault, .outOfService], Arrival (waits x none gone 1) up rush gone .closed
      (fun s x r => (s.dock x.dock).confirms s.cfg.params r.contents ∧ r.contents.code = .noBike))
    ∧ (∀ x ∈ [DockState.unknown, .arriving, .fault, .outOfService], ∀ c ∈ [sameBike, otherBike, untagged, clash, otherKind, nearMiss],
      ∀ o ∈ [LatchPosition.closed, .opened], Arrival (waits x none c 2) up rush c o (fun s x r =>
        (s.dock x.dock).confirms s.cfg.params r.contents))
    ∧ Arrival (waits .empty (some gone) gone 0) up { rush with cfg := { rush.cfg with params := { rush.cfg.params with pConf := 1 } } }
      sameBike .closed (fun s x r => (s.dock x.dock).state = .empty ∧ r.contents.code ≠ .short
        ∧ s.cfg.params.confirmAt r.contents ≤ 1 ∧ r.contents.code.bikeKind = some .standard ∧ s.noBounce r.contents.tag.number)
    ∧ Arrival (waits .arriving none sameBike 2) up bouncing sameBike .closed (fun s _ r => r.contents.tag.number = some 103
      ∧ s.bouncesOn 103 ⟨500101, 900, .final (some 103) 2 0 true 16⟩ 0 true 16)
    ∧ (0 < rush.freeSlots ∧ clogged.freeSlots = 0 ∧ (clogged.dock 2).owed = none ∧ (brim.dock 2).owed.isSome = true ∧ brim.freeSlots = 0) := by
  refine ⟨?_, arrival rfl (by decide) (by decide +kernel), ?_, ?_, arrival rfl (by decide) ?_, arrival rfl (by decide) ?_, ?_⟩
  · intro x hx
    exact arrival rfl (by decide) (by revert x; decide +kernel)
  · intro x hx
    exact arrival rfl (by decide) (by revert x; simp only [Dock.confirms, Dock.steady]; decide +kernel)
  · intro x hx c hc o ho
    refine arrival rfl (by revert c; decide) ?_
    revert x c o
    simp only [Dock.confirms, Dock.steady]
    decide +kernel
  · exact ⟨by decide +kernel, by decide +kernel, by decide +kernel, by decide +kernel, .inr (.inr nofun)⟩
  · refine ⟨rfl, by decide +kernel, .head _, ⟨2, rfl⟩, by decide +kernel, ?_⟩
    intro v hv hne
    exact absurd (List.mem_singleton.mp hv) hne
  · decide +kernel

/-- The bike 103 without its number, on a dock that counts toward it. -/
def nameless : Dock :=
  { waits .docked (some untagged) sameBike 2 with bike := some ⟨.standard, none, 0, none, none⟩, alarm := true }

theorem witness_docked_reports :
    (∀ c ∈ [sameBike, shorted], Arrival (waits .docked (some sameBike) gone 0) up rush c .opened (fun s x r =>
      (s.dock x.dock).state = .docked ∧ r.latch = .opened))
    ∧ Arrival (waits .docked (some sameBike) gone 0) up rush shorted .closed (fun s x r =>
      (s.dock x.dock).state = .docked ∧ r.latch = .closed ∧ r.contents.code = .short)
    ∧ Arrival (waits .docked (some sameBike) gone 1) up rush gone .closed (fun s x r => (s.dock x.dock).state = .docked
      ∧ (s.dock x.dock).bike = some ⟨.standard, some 103, 0, none, none⟩ ∧ (s.dock x.dock).confirms s.cfg.params r.contents
      ∧ r.contents.code = .noBike)
    ∧ (∀ c ∈ [nearMiss, otherKind], Arrival (waits .docked (some sameBike) c 2) up rush c .closed (fun s x r =>
      (s.dock x.dock).confirms s.cfg.params r.contents ∧ r.contents.code ≠ .noBike ∧ r.contents.code.bikeKind ≠ some .standard))
    ∧ (∀ c ∈ [clash, otherBike, untagged], Arrival (waits .docked (some sameBike) c 2) up rush c .closed (fun s x r =>
      (s.dock x.dock).confirms s.cfg.params r.contents ∧ r.contents.code.bikeKind = some .standard
        ∧ (r.contents.tag = .conflict ∨ r.contents.tag = .ok 104 ∧ 104 ≠ 103 ∧ 2 ≤ s.freeSlots ∨ r.contents.tag = .none)))
    ∧ Arrival nameless up rush sameBike .closed (fun s x r => (s.dock x.dock).confirms s.cfg.params r.contents
      ∧ (s.dock x.dock).bike = some ⟨.standard, none, 0, none, none⟩ ∧ r.contents.tag = .ok 103) := by
  refine ⟨fun c hc => arrival rfl (by revert c; decide) (by revert c; decide +kernel), arrival rfl (by decide) (by decide +kernel),
    arrival rfl (by decide) ?_, fun c hc => arrival rfl (by revert c; decide) ?_, fun c hc => arrival rfl (by revert c; decide) ?_,
    arrival rfl (by decide) ?_⟩
  all_goals (try revert c); simp only [Dock.confirms, Dock.steady]; decide +kernel

/-- A release of tag 21 at dock 3, whose presentation is live. -/
def releasing21 : State := claimed 21 2 .claimed 10000 rush
/-- The same in a stale wait. -/
def staleAt (st : StaleStage) : State := releasing21.setRel 2 (some { ReleaseState.fresh with stale := some st })

/-- A contact fault as the report shows it, at once or confirmed. -/
def Shows (k : Dock) (p : Params) (c : Contents) (cause : FaultCause) : Prop :=
  k.bike.bind (fun b => contactFault? b c) = some cause ∧ (cause = .short ∨ k.confirms p c)

theorem Shows.shown {k : Dock} {p : Params} {c : Contents} {cause : FaultCause} (h : Shows k p c cause) :
    k.faultShown p c cause := by
  obtain ⟨b, hb, hf⟩ := Option.bind_eq_some_iff.mp h.1
  exact ⟨hb ▸ (contactFault?_iff b c cause).mp hf, h.2⟩

/-- Contents that show each contact fault on dock 3's bike. -/
def faults : List (Contents × FaultCause) :=
  [(shorted, .short), (nearMiss, .misseated), (otherKind, .misseated), (clash, .tagConflict), (otherBike, .tagMismatch)]

/-- Dock 3 of a release with an owner. -/
def releasedBy (o : Option Owner) (x : DockState) (candidate : Contents) (n : Nat) : Dock := { released x candidate n with owner := o }

theorem witness_release_reports :
    (∀ o ∈ claimants, ∀ x ∈ [DockState.claimed, .unlatching], Arrival (releasedBy o x gone 0) up releasing21 sameBike .opened
      (fun s y r => Claims s y.dock o ∧ (s.dock y.dock).state = x ∧ x.inRelease = true
        ∧ r.contents.code ≠ .short ∧ (s.dock y.dock).steady r.contents))
    ∧ (∀ x ∈ [DockState.claimed, .unlatching], ∀ f ∈ faults, ∀ l ∈ [LatchPosition.opened, .closed],
      Arrival (released x f.1 2) up releasing21 f.1 l (fun s y r => Claims s y.dock (some (.tag 21))
        ∧ Shows (s.dock y.dock) s.cfg.params r.contents f.2 ∧ s.relState y.dock = some .fresh))
    ∧ (∀ o ∈ claimants, ∀ x ∈ [DockState.claimed, .unlatching, .pickup, .relock],
      Arrival (releasedBy o x gone 1) up releasing21 gone .closed (fun s y r => Claims s y.dock o
        ∧ (s.dock y.dock).confirms s.cfg.params r.contents ∧ r.contents.code = .noBike
        ∧ (s.relState y.dock).bind ReleaseState.stale = none ∧ 0 < s.recs.reserved))
    ∧ (∀ x ∈ [DockState.pickup, .relock], ∀ st ∈ [StaleStage.pickup, .relock], Arrival (released x gone 1) up (staleAt st) gone .opened
      (fun s y r => Claims s y.dock (some (.tag 21)) ∧ (s.dock y.dock).confirms s.cfg.params r.contents
        ∧ (s.relState y.dock).bind ReleaseState.stale = some st ∧ 0 < s.recs.reserved)) := by
  refine ⟨fun o ho x hx => arrival rfl (by decide) ?_, fun x hx f hf l hl => arrival rfl (by revert f; decide) ?_,
    fun o ho x hx => arrival rfl (by decide) ?_, fun x hx st hs => arrival rfl (by decide) ?_⟩
  all_goals (try revert o); revert x; (try revert st); (try revert f); (try revert l)
  all_goals simp only [Claims, Shows, Dock.confirms, Dock.steady]; decide +kernel

/-- Contact faults in the stages that note them, a relock that ends, with a fault noted before, shown now or none, and one that
has no owner; and a failed claim when every slot is taken and a record is owed. -/
theorem witness_noted_faults :
    (∀ x ∈ [DockState.pickup, .relock], ∀ f ∈ faults, Arrival (released x f.1 2) up releasing21 f.1 .opened (fun s y r =>
      Claims s y.dock (some (.tag 21)) ∧ Shows (s.dock y.dock) s.cfg.params r.contents f.2 ∧ s.relState y.dock = some .fresh))
    ∧ (∀ o ∈ none :: claimants, Arrival (releasedBy o .relock gone 0) up releasing21 sameBike .closed (fun s y r =>
      Claims s y.dock o ∧ r.contents.code.bikeKind.isSome = true ∧ (s.dock y.dock).steady r.contents ∧ r.contents.code ≠ .short
        ∧ s.relState y.dock = some .fresh))
    ∧ (∀ o ∈ none :: claimants, ∀ f ∈ [(otherKind, FaultCause.misseated), (clash, .tagConflict), (otherBike, .tagMismatch)],
      Arrival (releasedBy o .relock f.1 2) up releasing21 f.1 .closed (fun s y r => Claims s y.dock o
        ∧ r.contents.code.bikeKind.isSome = true ∧ Shows (s.dock y.dock) s.cfg.params r.contents f.2
        ∧ s.relState y.dock = some .fresh)
      ∧ Arrival (releasedBy o .relock gone 0) up (noting ⟨f.2, f.1⟩ releasing21) sameBike .closed (fun s y _ => Claims s y.dock o
        ∧ s.relState y.dock = some { ReleaseState.fresh with noted := some ⟨f.2, f.1⟩ }))
    ∧ Arrival (releasedBy none .relock gone 1) up releasing21 gone .closed (fun s y r => Claims s y.dock none
      ∧ (s.dock y.dock).confirms s.cfg.params r.contents)
    ∧ (∀ o ∈ claimants, Arrival (releasedBy o .claimed gone 1) up (takenUp releasing21) gone .closed (fun s y r =>
      Claims s y.dock o ∧ (s.dock 8).owed.isSome = true ∧ (s.dock y.dock).confirms s.cfg.params r.contents)) := by
  refine ⟨fun x hx f hf => arrival rfl (by revert f; decide) ?_, fun o ho => arrival rfl (by decide) ?_,
    fun o ho f hf => ⟨arrival rfl (by revert f; decide) ?_, arrival rfl (by decide) ?_⟩, arrival rfl (by decide) ?_,
    fun o ho => arrival rfl (by decide) ?_⟩
  all_goals (try revert x); (try revert o); (try revert f)
  all_goals simp only [Claims, Shows, Dock.confirms, Dock.steady]; decide +kernel

/-- The alternate of a failed attempt: dock 5 is selected once dock 3 is claimed; with alternate-used there is none. -/
theorem witness_alternate : (releasing 21 2).alternateUsed = false ∧ (releasing 21 2).reserved = false
    ∧ (releasing21.dock 2).bike = some ⟨.standard, some 103, 0, none, none⟩
    ∧ releasing21.select (releasing 21 2).summary.rider (releasing 21 2).summary.wanted (some .standard) = some 4
    ∧ (claimed 21 2 .claimed 10000 plain).select (releasing 21 2).summary.rider (releasing 21 2).summary.wanted (some .standard) = none := by
  decide +kernel

/-- The window of dock 3 closes on its fourth bad answer in a row; the second good answer in a row links it again. -/
theorem witness_link_loss :
    (∀ x ∈ [DockState.docked, .claimed, .unlatching, .pickup, .relock],
      WindowEnds (heard (released x gone 0) ⟨.linked, 0, 3⟩ releasing21) polled
      ∧ ((heard (released x gone 0) ⟨.linked, 0, 3⟩ releasing21).link 2).state = .linked
      ∧ (heard (released x gone 0) ⟨.linked, 0, 3⟩ releasing21).cfg.params.mDown = 3 + 1
      ∧ (∀ o ∈ claimants, Claims (heard (releasedBy o x gone 0) ⟨.linked, 0, 3⟩ releasing21) 2 o)
      ∧ (heard (released x gone 0) ⟨.linked, 0, 3⟩ releasing21).relState 2 = some .fresh)
    ∧ WindowEnds (heard { released .relock gone 0 with owner := none } ⟨.linked, 0, 3⟩ releasing21) polled
    ∧ (∀ x ∈ [DockState.pickup, .relock], ∀ st ∈ [StaleStage.pickup, .relock],
      Arrival (released x gone 0) ⟨.lost, 1, 0⟩ (staleAt st) sameBike .opened (fun s y r => (s.link y.dock).state ≠ .linked
        ∧ s.cfg.params.mUp ≤ (s.link y.dock).good + 1 ∧ Claims s y.dock (some (.tag 21))
        ∧ s.relState y.dock = some { ReleaseState.fresh with stale := some st } ∧ (s.dock y.dock).steady r.contents)
      ∧ Arrival (released x gone 1) ⟨.lost, 1, 0⟩ (staleAt st) gone .opened (fun s y r => Claims s y.dock (some (.tag 21))
        ∧ (s.dock y.dock).confirms s.cfg.params r.contents ∧ 0 < s.recs.reserved)) := by
  refine ⟨fun x hx => ⟨⟨rfl, 0, rfl, Nat.le_refl 5⟩, ?_⟩, ⟨rfl, 0, rfl, Nat.le_refl 5⟩, fun x hx st hs =>
    ⟨arrival rfl (by decide) ?_, arrival rfl (by decide) ?_⟩⟩
  all_goals revert x; (try revert st)
  all_goals simp only [Claims, Dock.confirms, Dock.steady]; decide +kernel


/-! The line -/

/-- A transaction of dock 3 in a phase, at a time; its window lasts 5 ms. -/
def lineIn (x : LinePhase) (n : Nat) : State := atMs n { rush with line := { rush.line with txn := some (phased 2 .poll x) } }

/-- A first and a later piece of an answer at the last millisecond and after it, the close of a window, and a byte timeout. -/
theorem witness_transactions :
    (lineIn .sending 0).line.txn = some (phased 2 .poll .sending)
    ∧ (∀ n ∈ [5, 6], (lineIn (.window 0) n).line.txn = some (phased 2 .poll (.window 0))
      ∧ (lineIn (.answering [3] 0) n).line.txn = some (phased 2 .poll (.answering [3] 0)) ∧ (lineIn (.window 0) n).clock.ms = n)
    ∧ ((lineIn (.window 0) 5).clock.ms ≤ 0 + (phased 2 .poll (.window 0)).window
      ∧ 0 + (phased 2 .poll (.window 0)).window < (lineIn (.window 0) 6).clock.ms
      ∧ 0 + (phased 2 .poll (.window 0)).window ≤ (lineIn (.window 0) 5).clock.ms)
    ∧ (([] ++ List.replicate 13 (0 : Byte)).length < 14 ∧ 14 ≤ ([(3 : Byte)] ++ List.replicate 13 0).length
      ∧ List.replicate 13 (0 : Byte) ≠ []) := by decide +kernel

/-- A bad answer that keeps the link: the third in a row on a LINKED dock, and one on a dock that is not LINKED. -/
theorem witness_settlement :
    (WindowEnds (heard Dock.reset ⟨.linked, 0, 2⟩ rush) polled
      ∧ ((heard Dock.reset ⟨.linked, 0, 2⟩ rush).link 2).bad + 1 < (heard Dock.reset ⟨.linked, 0, 2⟩ rush).cfg.params.mDown)
    ∧ (WindowEnds (heard Dock.reset ⟨.lost, 1, 0⟩ rush) polled ∧ ((heard Dock.reset ⟨.lost, 1, 0⟩ rush).link 2).state ≠ .linked)
    ∧ (LineCommand.poll.cls = none ∧ LineCommand.caps.cls = some .charge ∧ LineCommand.latchOpen.cls = some .latch) :=
  ⟨⟨⟨rfl, 0, rfl, Nat.le_refl 5⟩, by decide +kernel⟩, ⟨⟨rfl, 0, rfl, Nat.le_refl 5⟩, by decide +kernel⟩, by decide⟩

/-- An electric bike on dock 9 with a contract and entries of the charge queue. -/
def queued9 (c : Charge) (q : List LineEntry) : State :=
  { rush.setChg 8 c with line := { (rush.setChg 8 c).line with chargeQ := q } }

theorem witness_settled_caps :
    (∀ q ∈ [[], [(⟨8, .stop, false⟩ : LineEntry)], [⟨8, .caps, false⟩]],
      ((queued9 { Charge.reset with contract := some .offered } q).chg 8).contract = some .offered)
    ∧ (entryOf (queued9 Charge.reset []).line.chargeQ 8 = none
      ∧ entryOf (queued9 Charge.reset [⟨8, .stop, false⟩]).line.chargeQ 8 = some ⟨8, .stop, false⟩
      ∧ entryOf (queued9 Charge.reset [⟨8, .caps, false⟩]).line.chargeQ 8 = some ⟨8, .caps, false⟩)
    ∧ LineCommand.stop ≠ .caps := by decide +kernel

/-- Queues with and without an entry that is free of resend wait. -/
def lineWith (latch charge : List LineEntry) (docks : Nat) : State :=
  { rush with line := { rush.line with latchQ := latch, chargeQ := charge }
              cfg := { rush.cfg with params := { rush.cfg.params with dockCount := docks } } }
def waiting (d : DockId) : LineEntry := ⟨d, .latchOpen, true⟩
def free (d : DockId) : LineEntry := ⟨d, .latchOpen, false⟩

theorem witness_line_grant :
    ((lineWith [waiting 0, free 1] [] 64).line.latchQ = [waiting 0] ++ free 1 :: [] ∧ (∀ e ∈ [waiting 0], e.resendWait = true)
      ∧ (free 1).resendWait = false)
    ∧ ((lineWith [waiting 0] [waiting 1, free 2] 64).line.chargeQ = [waiting 1] ++ free 2 :: []
      ∧ ∀ e ∈ (lineWith [waiting 0] [waiting 1, free 2] 64).line.latchQ, e.resendWait = true)
    ∧ (let s := lineWith [waiting 0] [waiting 1] 3
      (∀ e ∈ s.line.latchQ ++ s.line.chargeQ, e.resendWait = true)
      ∧ (2 : DockId).val < s.cfg.params.dockCount ∧ entryOf s.line.latchQ 2 = none ∧ entryOf s.line.chargeQ 2 = none
      ∧ (∀ y : DockId, y.val < s.cfg.params.dockCount ∧ entryOf s.line.latchQ y = none ∧ entryOf s.line.chargeQ y = none →
          (if s.line.ptr.val ≤ (2 : DockId).val then (2 : DockId).val else (2 : DockId).val + 64)
            ≤ (if s.line.ptr.val ≤ y.val then y.val else y.val + 64)))
    ∧ (∀ s ∈ [lineWith [waiting 0] [waiting 1] 2, lineWith [] [waiting 0, waiting 1] 2],
      (∀ d : DockId, ¬ (d.val < s.cfg.params.dockCount ∧ entryOf s.line.latchQ d = none ∧ entryOf s.line.chargeQ d = none))
      ∧ ∀ e ∈ s.line.latchQ ++ s.line.chargeQ, e.resendWait = true) := by decide +kernel

/-! The budget -/

/-- One slot free and H = 1,500 - 1,411 = 89, one below P_latch: the ACTIVE contract of dock 9 counts more than level 0. -/
def short89 : State :=
  let s := rush.setChg 8 { Charge.reset with contract := some .active, granted := some 3, counted := 1411 }
  { s with rel := { s.rel with grantQ := [2] } }

theorem witness_budget :
    (short89.rel.grantQ ≠ [] ∧ short89.rel.pulses < short89.cfg.params.lSlots
      ∧ short89.headroom + 1 = short89.cfg.params.pLatch ∧ short89.latchHeld = true)
    ∧ rush.latchHeld = false
    ∧ (let s := rush.setChg 8 { Charge.reset with contract := some .waiting, requested := some 1 }
      s.latchHeld = false ∧ (s.chg 8).contract = some .waiting ∧ (s.chg 8).requested = some 1 ∧ s.linked 8 = true) := by decide +kernel

/-- Dock 9 with each contract that a claim finds, with and without a counted allocation. -/
theorem witness_claim_stops :
    (∀ c ∈ [ContractState.active, .trimmed, .stopping, .idle, .offered, .waiting], ∀ n ∈ [0, 40],
      let s := asked .a 0x55 [9] (queued9 { Charge.reset with contract := some c, counted := n } [⟨8, .caps, false⟩])
      s.dockInUse? (9 : Byte).toNat = some 8 ∧ (s.dock 8).state = .docked ∧ s.linked 8 = true ∧ s.slotTest = true
        ∧ (s.chg 8).contract = some c ∧ (s.chg 8).counted = n ∧ (s.chg 8).stopOutstanding = false
        ∧ (entryOf s.line.chargeQ 8).map LineEntry.command = some .caps)
    ∧ (∀ n ∈ [0, 40], ∀ b : Bool,
      let s := (releasing21.setChg 2 { Charge.reset with held := true, counted := n }).setRel 2 (some { ReleaseState.fresh with ready := b })
      (s.dock 2).state = .claimed ∧ (s.chg 2).held = true ∧ (s.chg 2).contract = none ∧ (s.chg 2).counted = n
        ∧ s.relState 2 = some { ReleaseState.fresh with ready := b }) := by decide +kernel

theorem witness_claim_request (s : State) (h : s.portA.role = some .operator ∧ s.cfg.ready = true) :
    Executes (asked .a 0x55 [9] s) .a 0x55 .operator [9] := executes_op _ _ _ h

/-- A report of dock 9 with its bike, an applied level and a message, and its bytes. -/
def charging (applied : Option Level) (m : ChargeMessage) (soc : Nat) : Report := ⟨⟨.electricBike, .ok 109⟩, .closed, applied, m, some soc⟩
def messageBits : ChargeMessage → Byte × Byte
  | .none => (0, 0) | .request l => (1, BitVec.ofNat 8 l.val) | .full => (2, 0)
def told (applied : Option Level) (m : ChargeMessage) (soc : Nat) : List Byte :=
  answerBytes 8 1 1 1 109 0 (match applied with | some l => BitVec.ofNat 8 l.val | none => 0xFF) (messageBits m).1 (messageBits m).2
    (BitVec.ofNat 8 soc)

/-- Dock 9 with a charge record and another contract on dock 4, polled, with a total budget. -/
def bargaining (c other : Charge) (total : Nat) : State :=
  let s := (rush.setChg 8 c).setChg 3 other
  atMs 5 (inWindow 8 .poll { s with cfg := { s.cfg with params := { s.cfg.params with bTotal := total } } })
def bid : Transaction := phased 8 .poll (.window 0)

/-- What every clause on a contract asks, with the report and the premise of the clause. -/
def Bargain (c other : Charge) (total : Nat) (applied : Option Level) (m : ChargeMessage) (P : State → Prop) : Prop :=
  ReportArrives (bargaining c other total) bid (told applied m 95) (charging applied m 95)
  ∧ bid.command = .poll ∧ (bargaining c other total).chargeBusy 8 = false ∧ ((bargaining c other total).dock 8).state = .docked
  ∧ ((bargaining c other total).dock 8).steady (charging applied m 95).contents ∧ ((bargaining c other total).chg 8) = c
  ∧ c.held = false ∧ (bargaining c other total).clock.ms < Config.maxMs
  ∧ 0 < (bargaining c other total).cfg.params.offerInterval ∧ P (bargaining c other total)

theorem bargain {c other : Charge} {total : Nat} {applied : Option Level} {m : ChargeMessage} {P : State → Prop}
    (hg : goodAnswer? 8 (told applied m 95) = some (charging applied m 95) ∧ (told applied m 95).length = 14)
    (hh : c.held = false) (hp : P (bargaining c other total)) : Bargain c other total applied m P := by
  refine ⟨⟨⟨rfl, ⟨0, rfl, Nat.le_refl 5⟩, hg.2, hg.1⟩, rfl⟩, rfl, rfl, rfl, ?_, ?_, hh, (by decide : 5 < Config.maxMs),
    (by decide : 0 < rush.cfg.params.offerInterval), hp⟩
  · unfold Dock.steady
    exact (by decide +kernel : ((rush.dock 8).picture.any (fun x => x.same ⟨.electricBike, .ok 109⟩)) = true)
  · simp [bargaining, atMs, inWindow, State.chg, State.setChg, at64_put64_ne]

/-- The contracts that the clauses start from. -/
def offeredNow : Charge := { Charge.reset with contract := some .offered, capsDelivered := true }
def waitingNow : Charge := { Charge.reset with contract := some .waiting, requested := some 1, lastMessage := some .none }
def activeNow : Charge := { Charge.reset with contract := some .active, granted := some 1, counted := 80, lastMessage := some .none }

/-- The accept rule for level 2, 160 W, of dock 9. -/
def admits160 (s : State) : Bool :=
  decide ((160 : Int) - (s.chg 8).counted ≤ s.headroom - s.cfg.params.pLatch)
    && allDocks.all (fun y => decide ((s.chg y).contract ≠ some .waiting ∧ (s.chg y).contract ≠ some .trimmed))
    && decide (¬ (s.rel.grantQ ≠ [] ∧ s.rel.pulses < s.cfg.params.lSlots))

/-- B_total 249 never admits 160 W beside P_latch 90, 250 does; 250 with 80 W counted elsewhere does not admit it now. -/
theorem witness_contracts :
    Bargain offeredNow Charge.reset 249 none (.request 2) (fun s => s.cfg.params.bTotal < 160 + s.cfg.params.pLatch)
    ∧ Bargain offeredNow Charge.reset 250 none (.request 2) (fun s => ¬ s.cfg.params.bTotal < 160 + s.cfg.params.pLatch ∧ admits160 s = true)
    ∧ Bargain offeredNow { Charge.reset with counted := 1 } 250 none (.request 2) (fun s =>
      ¬ s.cfg.params.bTotal < 160 + s.cfg.params.pLatch ∧ admits160 s = false)
    ∧ Bargain waitingNow Charge.reset 249 none (.request 2) (fun s =>
      (s.chg 8).lastMessage ≠ some (.request 2) ∧ s.cfg.params.bTotal < 160 + s.cfg.params.pLatch)
    ∧ Bargain waitingNow Charge.reset 250 none (.request 2) (fun s =>
      (s.chg 8).lastMessage ≠ some (.request 2) ∧ ¬ s.cfg.params.bTotal < 160 + s.cfg.params.pLatch)
    ∧ Bargain activeNow Charge.reset 250 (some 1) (.request 0) (fun s => s.cfg.params.levelWatts 1 = (s.chg 8).counted)
    ∧ Bargain activeNow Charge.reset 250 (some 1) (.request 1) (fun s => s.cfg.params.levelWatts 1 = (s.chg 8).counted)
    ∧ Bargain activeNow Charge.reset 250 (some 1) (.request 2) (fun s => admits160 s = true)
    ∧ Bargain activeNow { Charge.reset with counted := 1 } 250 (some 1) (.request 2) (fun s => admits160 s = false)
    ∧ Bargain offeredNow Charge.reset 250 none .full (fun s => (s.dock 8).bike.map Bike.kind = some .electric)
    ∧ Bargain waitingNow Charge.reset 250 none .full (fun s => (s.chg 8).lastMessage ≠ some .full)
    ∧ Bargain activeNow Charge.reset 250 (some 1) .full (fun s => (s.chg 8).lastMessage ≠ some .full) := by
  refine ⟨bargain ?_ rfl ?_, bargain ?_ rfl ?_, bargain ?_ rfl ?_, bargain ?_ rfl ?_, bargain ?_ rfl ?_, bargain ?_ rfl ?_,
    bargain ?_ rfl ?_, bargain ?_ rfl ?_, bargain ?_ rfl ?_, bargain ?_ rfl ?_, bargain ?_ rfl ?_, bargain ?_ rfl ?_⟩
  all_goals decide +kernel

/-- A TRIMMED contract of level 3. -/
def trimmedNow : Charge :=
  { Charge.reset with contract := some .trimmed, granted := some 0, requested := some 3, counted := 40, lastMessage := some .none }

theorem witness_trimmed :
    (∀ a ∈ [none, some (0 : Level)], Bargain trimmedNow Charge.reset 249 a (.request 2) (fun s =>
      (s.chg 8).lastMessage ≠ some (.request 2) ∧ s.cfg.params.bTotal < 160 + s.cfg.params.pLatch ∧ s.cfg.params.level0 = 40)
    ∧ Bargain trimmedNow Charge.reset 250 a (.request 2) (fun s => ¬ s.cfg.params.bTotal < 160 + s.cfg.params.pLatch))
    ∧ Bargain trimmedNow Charge.reset 250 (some 0) .full (fun s => (s.chg 8).lastMessage ≠ some .full
      ∧ (s.chg 8).counted = max (s.cfg.params.watts (some 0)) (s.cfg.params.watts (some 0)))
    ∧ Bargain { trimmedNow with counted := 80 } Charge.reset 250 (some 1) .none (fun s =>
      (s.chg 8).counted = max (s.cfg.params.watts (s.chg 8).granted) (s.cfg.params.watts (some 1))) := by
  refine ⟨fun a ha => ⟨bargain ?_ rfl ?_, bargain ?_ rfl ?_⟩, bargain ?_ rfl ?_, bargain ?_ rfl ?_⟩
  all_goals (try revert a); decide +kernel

theorem charging_good : ∀ a ∈ [none, some (0 : Level), some 1], ∀ n ∈ [94, 95],
    goodAnswer? 8 (told a .none n) = some (charging a .none n) ∧ (told a .none n).length = 14 := by decide +kernel

/-- Dock 9's report on a contract, settled, and not settled while CHARGE_STOP waits. -/
theorem witness_settled (c : Charge) (a : Option Level) (ha : a ∈ [none, some (0 : Level), some 1]) (n : Nat) (hn : n ∈ [94, 95]) :
    let s := bargaining c Charge.reset 1500
    (AnswerArrives s bid (told a .none n) (charging a .none n) ∧ s.chg 8 = c ∧ s.linked 8 = true ∧ (s.dock 8).state = .docked
      ∧ (s.dock 8).steady (charging a .none n).contents ∧ (s.dock 8).bike.map Bike.kind = some .electric)
    ∧ (bid.command.cls ≠ some .charge ∧ entryOf s.line.chargeQ 8 = none)
    ∧ entryOf ({ s with line := { s.line with chargeQ := [⟨8, .stop, false⟩] } } : State).line.chargeQ 8 ≠ none := by
  have hg := charging_good a ha n hn
  refine ⟨⟨⟨rfl, ⟨0, rfl, Nat.le_refl 5⟩, hg.2, hg.1⟩, ?_, rfl, rfl, ?_, rfl⟩, ⟨by decide, rfl⟩, by simp [entryOf]⟩
  · simp [bargaining, atMs, inWindow, State.chg, State.setChg, at64_put64_ne]
  · unfold Dock.steady
    exact (by decide +kernel : ((rush.dock 8).picture.any (fun x => x.same ⟨.electricBike, .ok 109⟩)) = true)

/-! Over all commands -/

/-- A command that leaves an eligible count different: dock 3 goes out of service; and a grant whose head is not DOCKED. -/
theorem witness_availability :
    (let s := asked .a 0x51 [3, 1] rush
      ∃ t, exec (.setDockService .a) s = .next t ∧ s.eligibleCount .standard ≠ t.eligibleCount .standard)
    ∧ (∀ d, grantable.rel.grantQ.head? = some d → (grantable.dock d).state ≠ .docked) := by
  refine ⟨⟨_, rfl, by decide +kernel⟩, ?_⟩
  intro d h
  cases (show some 2 = some d from h)
  decide +kernel

/-- Set Time of the RIDER port with a payload of 4 bytes and with one of none. -/
theorem witness_role_lengths : payloadLengthOk 0x20 [0, 0, 0, 1] = true ∧ payloadLengthOk 0x20 [] = false
    ∧ payloadLengthOk 0x24 (1 :: List.replicate 8 0) = true ∧ payloadLengthOk 0x24 (2 :: List.replicate 8 0) = false := by decide

/-! Admission, step by step -/

/-- What the statement on refusals asks of every admission. -/
theorem witness_admits (k : Token) (s : State) (h : s.usedDistinct) :
    (admitting 21 k s).pres.admission = some (s.heldInputs 21) ∧ (s.heldInputs 21).tag = 21
    ∧ (admitting 21 k s).entry 21 = some { queued 21 k with stage := .checking } ∧ (queued 21 k).token = some k
    ∧ (queued 21 k).owed ≠ 0 ∧ (admitting 21 k s).usedDistinct := ⟨rfl, rfl, rfl, rfl, nofun, h⟩

/-- The station at a station time, with used-token entries and with docks or without. -/
def atTime (n : Nat) (s : State) : State := { s with clock := { s.clock with stationTime := n } }
def withUsed (us : List UsedEntry) (s : State) : State := { s with tokens := { s.tokens with used := us } }

/-- A token issued in minute 1, valid for a minute: its window opens 60 s after the start. -/
def laterToken : Token :=
  let k := { bareToken 500101 1 0 1 0 with issueMinute := 1, validity := 1 }
  { k with check := checkWord key7 k }

set_option maxRecDepth 20000 in
/-- The hypotheses of steps 1 to 4, for the token that the rush holds. -/
theorem passes_good (us : List UsedEntry) (k : Token) (hk : k ∈ [goodToken, laterToken, token 500101 1 0 1 7700, token 500101 1 2 1 7700]) :
    k.serial = 500101 ∧ slotKey (rush.heldInputs 21).current (rush.heldInputs 21).next k.generation = some key7
    ∧ checkWord key7 k = k.check ∧ (withUsed us rush).tokens.active = [] := by
  refine ⟨?_, ?_, ?_, rfl⟩ <;> revert k <;> decide +kernel

set_option maxRecDepth 20000 in
theorem passes_token (us : List UsedEntry) : passesToken (withUsed us rush) (rush.heldInputs 21) goodToken :=
  ⟨by decide +kernel, fun key h => by
    rw [(passes_good us goodToken (by decide)).2.1] at h
    cases h
    exact (passes_good us goodToken (by decide)).2.2.1, nofun⟩

theorem witness_refusals :
    badToken.malformed = true
    ∧ ({ goodToken with check := goodToken.check + 1 }.malformed = false
      ∧ checkWord key7 { goodToken with check := goodToken.check + 1 } ≠ goodToken.check + 1)
    ∧ (∃ r ∈ [(⟨500101, 500101⟩ : SerialRange)], r.low ≤ goodToken.serial ∧ goodToken.serial ≤ r.high)
    ∧ (usedOf (withUsed [⟨500101, 900, .tentative 5 16⟩] rush).tokens.used goodToken.serial = some ⟨500101, 900, .tentative 5 16⟩
      ∧ usedOf (withUsed [⟨500101, 1, .final none 0 0 true 16⟩] rush).tokens.used goodToken.serial = some ⟨500101, 1, .final none 0 0 true 16⟩
      ∧ rush.uptime + 1 = 1)
    ∧ ((rush.heldInputs 21).synced = true ∧ (rush.heldInputs 21).grace = 30
      ∧ ((atTime 29 rush).heldInputs 21).time + 30 + 1 = 60 * laterToken.issueMinute
      ∧ 60 * laterToken.issueMinute + 60 * laterToken.validity + 30 + 1 = ((atTime 151 rush).heldInputs 21).time)
    ∧ (heldEntry held.resv 7700).any (fun h => decide (h.kind ∉ kindsAllowed (token 500101 2 2 1 7700).summary.rider
        (token 500101 2 2 1 7700).summary.wanted)) = true
    ∧ (ordinaryPath plain goodToken ∧ plain.select goodToken.summary.rider goodToken.summary.wanted none = none)
    ∧ (ordinaryPath rush goodToken ∧ rush.select goodToken.summary.rider goodToken.summary.wanted none = some 2)
    ∧ (∃ h, heldEntry held.resv 7700 = some h ∧ h.dock = 2 ∧ h.kind ∈ kindsAllowed (token 500101 1 0 1 7700).summary.rider
        (token 500101 1 0 1 7700).summary.wanted) := by
  refine ⟨by decide +kernel, by decide +kernel, by decide +kernel, by decide +kernel, by decide +kernel, by decide +kernel,
    ⟨.inl rfl, by decide +kernel⟩, ⟨.inl rfl, by decide +kernel⟩, ⟨_, rfl, rfl, by decide +kernel⟩⟩

/-- Serial 500101 used up to second 0, and 95 or 96 entries that have not expired. -/
def crowded (n : Nat) : State :=
  withUsed (⟨500101, 0, .final none 0 0 true 16⟩ :: (List.range n).map (fun i => ⟨i + 1, 60, .final none 0 0 true 16⟩)) rush

set_option maxRecDepth 20000 in
theorem witness_step_nine : ∀ n ∈ [94, 95],
    passesToken (crowded n) (rush.heldInputs 21) goodToken ∧ passesUsed (crowded n) goodToken
    ∧ passesTime (rush.heldInputs 21) goodToken ∧ passesReservation (crowded n) goodToken ∧ (crowded n).usedDistinct
    ∧ ((crowded n).tokens.used.filter (fun u => decide (¬ (u.isFinal = true ∧ u.expiry ≤ (crowded n).uptime)))).length = n := by
  intro n hn
  refine ⟨passes_token _, ?_, fun _ => by decide +kernel, .inl rfl, ⟨?_, ?_⟩, ?_⟩
  · intro u h
    cases (show some (⟨500101, 0, .final none 0 0 true 16⟩ : UsedEntry) = some u from h)
    exact ⟨rfl, Nat.zero_le _⟩
  · show _ ≤ _
    revert n; decide +kernel
  all_goals revert n; decide +kernel

/-- The station whose table is full of entries that have not expired. -/
def packed : State := withUsed ((List.range 96).map (fun i => ⟨i + 1, 60, .final none 0 0 true 16⟩)) rush

set_option maxRecDepth 20000 in
theorem witness_table_full : passesUsed packed goodToken ∧ packed.usedDistinct
    ∧ 96 ≤ (packed.tokens.used.filter (fun u => decide (¬ (u.isFinal = true ∧ u.expiry ≤ packed.uptime)))).length := by
  have hn : usedOf packed.tokens.used goodToken.serial = none := by decide +kernel
  refine ⟨fun u h => (by rw [hn] at h; cases h), ⟨?_, ?_⟩, ?_⟩
  · show _ ≤ _
    decide +kernel
  all_goals decide +kernel

/-- The reserved path, and the three routes that cannot be taken. -/
theorem witness_admission_reserved : ∃ v s1, stepsOf (token 500101 1 0 1 7700) held = (s1, .ok v)
    ∧ (s1.goesOffline (token 500101 1 0 1 7700) v && held.slotTest && v.reserved) = true :=
  passed_of (f := fun s1 v => s1.goesOffline (token 500101 1 0 1 7700) v && held.slotTest && v.reserved) (by decide +kernel)

/-- The station with 8 open referrals. -/
def eightOpen : State := { rush with refs := { rush.refs with opened := List.replicate 8 referral } }

theorem witness_routes_refused :
    (∃ v s1, stepsOf goodToken (reserving 112) = (s1, .ok v) ∧ (s1.goesOffline goodToken v && !(reserving 112).slotTest) = true)
    ∧ (∃ v s1, stepsOf sentToken { rush with refs := { rush.refs with link := .down } } = (s1, .ok v)
      ∧ (!s1.goesOffline sentToken v) = true)
    ∧ (∃ v s1, stepsOf sentToken eightOpen = (s1, .ok v) ∧ (!s1.goesOffline sentToken v && decide (eightOpen.refs.link = .up)) = true)
    ∧ 8 ≤ eightOpen.refs.opened.length :=
  ⟨passed_of (f := fun s1 v => s1.goesOffline goodToken v && !(reserving 112).slotTest) (by decide +kernel),
    passed_of (f := fun s1 v => !s1.goesOffline sentToken v) (by decide +kernel),
    passed_of (f := fun s1 v => !s1.goesOffline sentToken v && decide (eightOpen.refs.link = .up)) (by decide +kernel),
    by decide +kernel⟩

/-! Referrals, selection -/

set_option maxRecDepth 20000 in
/-- A full list: a serial that a range covers, one that follows a range and one that comes before a range. -/
theorem witness_full_list :
    (inserting 1 brimRanges).listsOrdered ∧ revoked (inserting 1 brimRanges).tokens.active 1 = true
    ∧ (∃ r ∈ (inserting 3 brimRanges).tokens.active, r.high + 1 = 3) ∧ (∃ r ∈ (inserting 4 brimRanges).tokens.active, 4 + 1 = r.low) := by
  refine ⟨⟨⟨?_, ?_⟩, trivial⟩, ?_, ?_, ?_⟩ <;> decide +kernel

/-- Tag 23 with a reservation code, referred, at a station of which nothing is docked, whose records are full, or that holds
dock 3 for the code. -/
def referredWith (code : Nat) (s : State) : State :=
  { s with
    pres := referred.pres.entries.map (fun e => { e with summary := { e.summary with reservation := code } })
      |> fun es => { s.pres with entries := es }
    refs := referred.refs, tokens := referred.tokens, clock := { s.clock with credit := 0 } }

theorem witness_approvals :
    ((answerTo 500103 1 59).length = 8 ∧ fieldVal (answerTo 500103 1 59) 6 2 < 60 ∧ 14400 < fieldVal (answerTo 500103 1 14401) 6 2)
    ∧ (∀ s ∈ [referredWith 0 plain, referredWith 7700 held, referredWith 0 (reserving 112), referredWith 7700 { held with recs := (reserving 112).recs }],
      s.referralsBounded ∧ referralOf s.refs.opened referral.id = some referral ∧ s.creditBounded
        ∧ (s.entry referral.tag).any (fun e => decide (e.referral = some referral.id ∧ e.dock = none ∧ e.slotReserved = false
          ∧ e.creditCharged = 0 ∧ e.owed ≠ 0)) = true ∧ (heldCodes s.resv).Nodup)
    ∧ (∃ e, (referredWith 0 plain).entry 23 = some e ∧ e.summary.reservation = 0
      ∧ (referredWith 0 plain).select e.summary.rider e.summary.wanted none = none)
    ∧ (∃ e, (referredWith 0 (reserving 112)).entry 23 = some e ∧ e.summary.reservation = 0
      ∧ ((referredWith 0 (reserving 112)).select e.summary.rider e.summary.wanted none).isSome = true
      ∧ (referredWith 0 (reserving 112)).slotTest = false)
    ∧ (∃ e h, (referredWith 7700 held).entry 23 = some e ∧ e.summary.reservation = 7700
      ∧ heldEntry (referredWith 7700 held).resv 7700 = some h ∧ h.kind ∈ kindsAllowed e.summary.rider e.summary.wanted
      ∧ (referredWith 7700 held).slotTest = true)
    ∧ (∃ e, (referredWith 7701 held).entry 23 = some e ∧ e.summary.reservation = 7701
      ∧ heldEntry (referredWith 7701 held).resv 7701 = none ∧ (referredWith 7701 held).slotTest = true
      ∧ (referredWith 7701 held).select e.summary.rider e.summary.wanted none = some 4) := by
  refine ⟨by decide +kernel, ?_, ⟨_, rfl, by decide +kernel, by decide +kernel⟩,
    ⟨_, rfl, by decide +kernel, by decide +kernel, by decide +kernel⟩,
    ⟨_, _, rfl, by decide +kernel, rfl, by decide +kernel, by decide +kernel⟩,
    ⟨_, rfl, by decide +kernel, by decide +kernel, by decide +kernel, by decide +kernel⟩⟩
  simp only [State.referralsBounded, State.creditBounded]
  decide +kernel

theorem witness_approval_requests (n : Nat) (s : State) (h : s.portA.role = some .operator ∧ s.cfg.ready = true) :
    Executes (asked .a 0x32 (answerTo 500103 1 n) s) .a 0x32 .operator (answerTo 500103 1 n) := executes_op _ _ _ h

/-- The flush of one referral whose presentation holds nothing. -/
theorem witness_flush : (referred.refs.opened.map Referral.tag).Nodup ∧ referred.creditBounded
    ∧ ∀ r ∈ referred.refs.opened, ∀ e, referred.entry r.tag = some e →
      e.dock = none ∧ e.slotReserved = false ∧ e.creditCharged = 0 ∧ e.owed ≠ 0 := by
  refine ⟨by decide +kernel, ?_, ?_⟩
  · show _ ≤ _
    decide +kernel
  · intro r hr e he
    cases List.mem_singleton.mp hr
    cases he
    exact ⟨rfl, rfl, rfl, nofun⟩

/-- Selections that name a dock, on each path, and selections that name none. -/
theorem witness_selection :
    rush.select (some .standard) (some .any) none = some 2 ∧ rush.select (some .electricPermitted) (some .electric) none = some 8
    ∧ rush.select (some .staff) (some .any) (some .electric) = some 8 ∧ plain.select (some .staff) (some .any) none = none
    ∧ rush.chooseByKind .standard = some 2 ∧ rush.chooseByKind .electric = some 8 ∧ plain.chooseByKind .electric = none := by
  decide +kernel

/-- A referral with a time left; one that is reached is not found. -/
theorem witness_referral_times : (atMs 5999 referred).clock.ms < referral.deadline ∧ (atMs 5999 referred).clock.ms < Config.maxMs
    ∧ (∀ r ∈ (atMs 6000 referred).refs.opened, r.id = 4 → r.deadline ≤ (atMs 6000 referred).clock.ms)
    ∧ (∀ r ∈ (atMs 6000 referred).refs.opened, r.fetched = true ∨ r.deadline ≤ (atMs 6000 referred).clock.ms) := by decide +kernel

/-- A dock record with a hold of code 7700. -/
def marked (k : Dock) : Dock := { k with heldBy := some 7700 }

/-- The reports of `witness_docked_reports` on a held dock, with a dock to move to, and a lost link. -/
theorem witness_held_reports :
    (∀ c ∈ [gone, nearMiss, otherKind, clash, otherBike, untagged], Arrival (marked (waits .docked (some sameBike) c 2)) up held c .closed
      (fun s x r => (s.dock x.dock).heldBy = some 7700 ∧ heldEntry s.resv 7700 = some ⟨7700, 2, .standard, 600, none, 0⟩
        ∧ (s.dock 4).heldBy = none ∧ (s.dock 4).state = .docked ∧ (s.dock x.dock).confirms s.cfg.params r.contents))
    ∧ (∀ c ∈ [sameBike, shorted], ∀ l ∈ [LatchPosition.opened, .closed], Arrival (marked (waits .docked (some sameBike) gone 0)) up held
      c l (fun s x _ => (s.dock x.dock).heldBy = some 7700 ∧ (heldEntry s.resv 7700).isSome = true))
    ∧ (WindowEnds (heard (marked (waits .docked (some sameBike) gone 0)) ⟨.linked, 0, 3⟩ held) polled
      ∧ ((heard (marked (waits .docked (some sameBike) gone 0)) ⟨.linked, 0, 3⟩ held).dock 2).heldBy = some 7700) := by
  refine ⟨fun c hc => arrival rfl (by revert c; decide) ?_, fun c hc l hl => arrival rfl (by revert c; decide) ?_,
    ⟨rfl, 0, rfl, Nat.le_refl 5⟩, rfl⟩
  all_goals revert c; (try revert l); (try simp only [Dock.confirms, Dock.steady]); decide +kernel

/-- The link of dock 3 comes back: DOCKED with a standard bike or an electric one, or a relock that nobody owns, with a noted
fault or none. -/
def electric3 : Dock := { withBike .electric 103 0 none with picture := some otherKind }

theorem witness_relinked :
    (∀ k ∈ [(waits .docked (some sameBike) gone 0, sameBike), (electric3, otherKind)], Arrival k.1 ⟨.lost, 1, 0⟩ rush k.2 .closed
      (fun s x r => (s.link x.dock).state ≠ .linked ∧ s.cfg.params.mUp = (s.link x.dock).good + 1 ∧ r.contents.code ≠ .short
        ∧ (s.dock x.dock).steady r.contents ∧ s.staleRuns x.dock = false ∧ (s.dock x.dock).state = .docked
        ∧ (s.dock x.dock).bike.isSome = true ∧ (s.chg x.dock).contract = none ∧ r.applied = none ∧ s.lowering x.dock = false))
    ∧ (∀ l ∈ [LatchPosition.opened, .closed], ∀ f ∈ [none, some (⟨.misseated, otherKind⟩ : NotedFault)],
      Arrival (releasedBy none .relock gone 0) ⟨.lost, 1, 0⟩ (releasing21.setRel 2 (some { ReleaseState.fresh with noted := f })) sameBike l
        (fun s x r => (s.link x.dock).state ≠ .linked ∧ s.cfg.params.mUp = (s.link x.dock).good + 1
          ∧ (s.dock x.dock).steady r.contents ∧ s.staleRuns x.dock = false ∧ (s.dock x.dock).state = .relock
          ∧ (s.dock x.dock).owner = none ∧ (s.dock x.dock).heldBy = none ∧ r.contents.code.bikeKind.isSome = true
          ∧ s.notedFault x.dock = f)) := by
  refine ⟨fun k hk => arrival rfl (by revert k; decide) ?_, fun l hl f hf => arrival rfl (by decide) ?_⟩
  · revert k; simp only [Dock.steady]; decide +kernel
  · revert l; revert f; simp only [Dock.steady]; decide +kernel

/-- The latch is seen open with contents that only raise the count, and in the report that confirms the removal. -/
theorem witness_open_reports :
    (∀ o ∈ claimants, ∀ x ∈ [DockState.claimed, .unlatching], Arrival (releasedBy o x otherBike 1) up releasing21 otherBike .opened
      (fun s y r => Claims s y.dock o ∧ r.contents.code ≠ .short ∧ ¬ (s.dock y.dock).steady r.contents
        ∧ (s.dock y.dock).countWith r.contents + 1 = s.cfg.params.confirmAt r.contents ∧ r.contents.code ≠ .noBike))
    ∧ (∀ o ∈ claimants, ∀ x ∈ [DockState.claimed, .unlatching], Arrival (releasedBy o x gone 1) up releasing21 gone .opened
      (fun s y r => Claims s y.dock o ∧ r.contents.code = .noBike ∧ (s.dock y.dock).confirms s.cfg.params r.contents
        ∧ s.recs.reserved = 1 ∧ (s.relState y.dock).bind ReleaseState.stale = none
        ∧ (s.entry 21).map Entry.owed = some 3)) := by
  refine ⟨fun o ho x hx => arrival rfl (by decide) ?_, fun o ho x hx => arrival rfl (by decide) ?_⟩
  all_goals revert o; revert x; simp only [Claims, Dock.confirms, Dock.steady, Dock.countWith]; decide +kernel

/-- A CHARGE_CAPS queued or in flight for an OFFERED contract, a dock with a place in its queue, without one, and not LINKED. -/
theorem witness_asked :
    (let s := queued9 { Charge.reset with contract := some .offered } [⟨2, .stop, false⟩, ⟨8, .caps, true⟩, ⟨4, .stop, false⟩];
      s.linked 8 = true ∧ s.line.queue .charge = [⟨2, .stop, false⟩] ++ ⟨8, .caps, true⟩ :: [⟨4, .stop, false⟩]
        ∧ entryOf (s.line.queue .charge) 8 = some ⟨8, .caps, true⟩ ∧ (s.chg 8).contract = some .offered
        ∧ entryOf (s.line.queue .latch) 8 = none ∧ s.linked 0 = false ∧ (∀ y ∈ s.line.chargeQ, y.dock ≠ 8 ∨ y.command = .caps))
    ∧ (let s := inWindow 8 .caps (queued9 { Charge.reset with contract := some .offered, counted := 40 } []);
      s.line.txn = some (phased 8 .caps (.window s.clock.ms)) ∧ LineCommand.caps.cls = some .charge
        ∧ entryOf (s.line.queue .charge) 8 = none ∧ (asked .a 0x55 [9] s).portA.next = some ⟨0x55, [9]⟩
        ∧ s.dockInUse? (9 : Byte).toNat = some 8 ∧ (s.dock 8).state = .docked ∧ s.slotTest = true) := by decide +kernel

/-! Records, parameters -/

/-- Docks 1 and 9 owe a record: 94, 95 or 128 records taken up, and the last sequences. -/
def owing (n : Nat) : State :=
  let owes := fun (d : DockId) (s : State) => s.setDock d { s.dock d with owed := some (plain.tripRecord .anomaly d none none) }
  owes 0 (owes 8 { plain with recs := { plain.recs with records := List.replicate n (record 7), nextSeq := 65535 } })

theorem witness_owed_pass : (∀ n ∈ [94, 95, 127, 128], (owing n).recs.nextSeq < 65536 ∧ ((owing n).dock 8).owed.isSome = true)
    ∧ ((owing 127).freeSlots = 1 ∧ (owing 128).freeSlots = 0 ∧ (owing 95).recs.records.length = 95 ∧ 0 < (owing 95).freeSlots) := by
  decide +kernel

/-- The sync lifetime put at 3,600 s with an age of 3,600 and of 3,601, and a lapsed sync put right. -/
def syncedAt (n : Nat) (x : SyncCondition) : State := { atMs n plain with clock := { (atMs n plain).clock with sync := x } }

theorem witness_sync_lifetime : (paramRange 20).isSome = true
    ∧ (∀ x ∈ [SyncCondition.never, .current, .lapsed], (syncedAt 3600000 x).uptime - (syncedAt 3600000 x).clock.lastSync = 3600
      ∧ (syncedAt 3601000 x).uptime - (syncedAt 3601000 x).clock.lastSync = 3601 ∧ (syncedAt 3601000 x).clock.sync = x) := by
  decide +kernel

/-- The pulse and slot parameters with one pulse and 240 W counted: B_total 1,500 leaves 1,260 W for the pulse. -/
def pulsing : State :=
  let s := contract { Charge.reset with contract := some .active, granted := some 3, counted := 240 }
  { s with rel := { s.rel with pulses := 1 } }

theorem witness_budget_parameters :
    (∀ id ∈ [23, 24, 25, 26, 27, 28, 29], (paramRange id).isSome = true)
    ∧ (329 < pulsing.countedSum + pulsing.cfg.params.pLatch * pulsing.rel.pulses
      ∧ ¬ 330 < pulsing.countedSum + pulsing.cfg.params.pLatch * pulsing.rel.pulses)
    ∧ (pulsing.cfg.params.bTotal < pulsing.countedSum + 1261 * pulsing.rel.pulses
      ∧ ¬ pulsing.cfg.params.bTotal < pulsing.countedSum + 1260 * pulsing.rel.pulses)
    ∧ (0 < pulsing.rel.pulses ∧ ¬ 1 < pulsing.rel.pulses)
    ∧ ((pulsing.chg 8).contract = some .active ∧ (8 : DockId).val < pulsing.cfg.params.dockCount)
    ∧ (∀ x ∈ [ContractState.offered, .waiting], ∀ q ∈ [[], [(⟨8, .stop, false⟩ : LineEntry)]],
      let s := queued9 { Charge.reset with contract := some x, requested := some 3 } q
      (∀ d : DockId, ¬ (0 < (s.chg d).counted ∨ (s.chg d).contract = some .active ∨ (s.chg d).contract = some .trimmed
        ∨ (s.chg d).contract = some .stopping)) ∧ (s.chg 8).contract = some x ∧ s.lowering 8 = !q.isEmpty)
    ∧ (let s := queued9 { Charge.reset with contract := some .waiting, requested := some 3 } []
      (s.chg 8).requested = some 3 ∧ 329 < s.cfg.params.levelWatts 3 + s.cfg.params.pLatch
        ∧ ¬ 330 < s.cfg.params.levelWatts 3 + s.cfg.params.pLatch) := by decide +kernel

end Sys2Proof.Tests
end

section
/-! SUPPORT. What the requests of the key slots and of the revocation load do (chapter 3), said once for each rule, and the
statements settled with them. -/

namespace Sys2Proof.Machine

/-! ## How a row of the OPERATOR role runs -/

@[simp] theorem State.respond_tokens (s : State) (p : PortId) (r : Response) : (s.respond p r).tokens = s.tokens :=
  State.setPort_tokens _ _ _

/-- A request of the right length that fails a later test of R184 is answered with that test's status. -/
theorem serve_refuses {s : State} {p : PortId} {code : Byte} {a : Access} {len : List Byte → Bool}
    {rule : List Byte → State → Answer} {payload : List Byte} {st : Status} (hn : (s.port p).next = some ⟨code, payload⟩)
    (ht : requestTests a (len payload) (s.port p).role s.cfg.ready = some st) :
    serve p code a len rule s = s.respond p ⟨st, []⟩ := by
  unfold serve
  simp only [hn, if_true, ht]

theorem requestTests_rider (ready : Bool) : requestTests .operator true (some .rider) ready = some .role := rfl

theorem requestTests_loading {role : Option Role} (h : role ≠ some .rider) :
    requestTests .operator true role false = some .notReady := by
  match role, h with
  | none, _ => rfl
  | some .operator, _ => rfl

/-- Every row served for the OPERATOR role refuses as R184 orders, whatever its own rule does. -/
theorem operatorOnly_of_serve {c : PortId → Instr} {code : Byte} {len : Nat} {rule : PortId → List Byte → State → Answer}
    (hc : ∀ p s, exec (c p) s = .next (serve p code .operator (lengthIs len) (rule p) s)) : OperatorOnly c code len := by
  intro s p payload hn hlen
  have hl : lengthIs len payload = true := decide_eq_true hlen
  rw [hc]
  constructor
  · intro hrole
    rw [serve_refuses hn (by rw [hl, hrole]; exact requestTests_rider _)]
  · intro hrole hready
    rw [serve_refuses hn (by rw [hl, hready]; exact requestTests_loading hrole)]

/-- A change of the Token Store alone leaves what the eligible counts and the free slots depend on. -/
theorem sameViews_tokens (s : State) (x : TokenStore) : SameViews s { s with tokens := x } := ⟨rfl, rfl, rfl, rfl⟩

/-! ## Key slots (3.1) -/

theorem exec_loadKey (p : PortId) (s : State) :
    exec (.loadKey p) s = .next (serve p 0x21 .operator (lengthIs 9) loadKey s) := rfl

theorem field_tail {g : Byte} {key : List Byte} {n : Nat} (h : key.length = n) : field (g :: key) 1 n = key :=
  List.take_of_length_le h.le

theorem loadKey_current {s : State} {g : Byte} (key : List Byte)
    (h : s.tokens.current.present = true ∧ s.tokens.current.generation = g) :
    loadKey (g :: key) s = ⟨s, some ⟨.state, []⟩⟩ := if_pos h

theorem loadKey_next {s : State} {g : Byte} {key : List Byte} (hk : key.length = 8)
    (h : ¬ (s.tokens.current.present = true ∧ s.tokens.current.generation = g)) :
    loadKey (g :: key) s = ⟨{ s with tokens := { s.tokens with next := ⟨true, g, key⟩ } }, some ⟨.done, [g]⟩⟩ := by
  unfold loadKey
  rw [field_tail hk]
  exact if_neg h

/-- Settles O26: each branch of R42 by the row's own rule, through what a served request answers. -/
theorem loadKeyWritesNext : Obligations.LoadKeyWritesNext := by
  refine ⟨operatorOnly_of_serve exec_loadKey, fun s p g key hx hk => ?_⟩
  have hl : lengthIs 9 (g :: key) = true := decide_eq_true (congrArg (· + 1) hk)
  constructor
  · intro hcur
    rw [exec_loadKey, serve_answers hx hl (loadKey_current key hcur) (SameViews.refl s)]
  · intro hcur
    rw [exec_loadKey, serve_answers hx hl (loadKey_next hk hcur) (sameViews_tokens s _)]

/-! ## Begin Revocation Load and a load of announced count 0 (3.2.2) -/

theorem exec_beginRevocationLoad (p : PortId) (s : State) :
    exec (.beginRevocationLoad p) s = .next (serve p 0x23 .operator (lengthIs 3) beginLoad s) := rfl

theorem exec_commitRevocationLoad (p : PortId) (s : State) :
    exec (.commitRevocationLoad p) s = .next (serve p 0x25 .operator (lengthIs 0) (commitLoad p) s) := rfl

theorem exec_revocationReplacementEnd (s : State) : exec .revocationReplacementEnd s = .next (replacementEnd s) := rfl

theorem fieldVal_announced (g hi lo : Byte) : fieldVal [g, hi, lo] 1 2 = hi.toNat * 256 + lo.toNat := by
  simp [fieldVal, field, beVal]

theorem beginLoad_above {s : State} {g hi lo : Byte} (h : 1024 < hi.toNat * 256 + lo.toNat) :
    beginLoad [g, hi, lo] s = ⟨s, some ⟨.outOfRange, []⟩⟩ := by
  rw [← fieldVal_announced g] at h
  exact if_pos h

theorem beginLoad_committing {s : State} {g hi lo : Byte} {l : LoadingList} (h : hi.toNat * 256 + lo.toNat ≤ 1024)
    (hload : s.tokens.load = .committing l) : beginLoad [g, hi, lo] s = ⟨s, some ⟨.state, []⟩⟩ := by
  unfold beginLoad
  rw [fieldVal_announced]
  simp only [if_neg (Nat.not_lt.2 h : ¬ Config.maxRanges < _), hload]
  rfl

theorem beginLoad_opens {s : State} {g hi lo : Byte} (h : hi.toNat * 256 + lo.toNat ≤ 1024)
    (hload : ∀ l, s.tokens.load ≠ .committing l) :
    beginLoad [g, hi, lo] s = ⟨{ s with tokens := { s.tokens with load := .opened ⟨g, hi.toNat * 256 + lo.toNat, []⟩ } },
      some ⟨.done, []⟩⟩ := by
  unfold beginLoad
  rw [fieldVal_announced]
  simp only [if_neg (Nat.not_lt.2 h : ¬ Config.maxRanges < _)]
  cases hs : s.tokens.load with
  | none => rfl
  | opened l => rfl
  | committing l => exact absurd hs (hload l)

/-- A commit of a load that holds every announced range joins the list changes, its response withheld (R50). -/
theorem commitLoad_complete {s : State} {p : PortId} {payload : List Byte} {l : LoadingList}
    (hload : s.tokens.load = .opened l) (hl : l.announced ≤ l.ranges.length) :
    commitLoad p payload s = ⟨{ s with tokens := { s.tokens with
      load := .committing l, changes := s.tokens.changes ++ [ListChange.replacement p] } }, none⟩ := by
  unfold commitLoad
  simp only [hload, if_neg (Nat.not_lt.2 hl)]

/-- The end of the replacement that runs puts the loading list in the active list's place (R50). -/
theorem replacementEnd_replaces {s : State} {p : PortId} {rest : List ListChange} {l : LoadingList}
    (hc : s.tokens.changes = .replacement p :: rest) (hload : s.tokens.load = .committing l)
    (hr : s.tokens.replacing = true) :
    replacementEnd s = ({ s with tokens := { s.tokens with
      active := l.ranges, activeGen := l.generation, load := .none, changes := rest, replacing := false } }).respond p
        ⟨.done, [l.generation] ++ be16 l.ranges.length⟩ := by
  unfold replacementEnd
  simp only [hc, hload, hr, if_true]

/-- Settles O28: the three answers of R48, and the commit and the replacement of an empty list (R50). -/
theorem beginLoadOpens : Obligations.BeginLoadOpens := by
  refine ⟨operatorOnly_of_serve exec_beginRevocationLoad, fun s p g hi lo hx => ⟨?_, ?_, ?_⟩, fun s p g => ⟨?_, ?_⟩⟩
  · intro hn _
    rw [exec_beginRevocationLoad, serve_answers hx rfl (beginLoad_above hn) (SameViews.refl s)]
  · intro hn l hload
    rw [exec_beginRevocationLoad, serve_answers hx rfl (beginLoad_committing hn hload) (SameViews.refl s)]
  · intro hn hload
    rw [exec_beginRevocationLoad, serve_answers hx rfl (beginLoad_opens hn hload) (sameViews_tokens s _)]
  · intro hx hload
    rw [exec_commitRevocationLoad, serve_waits hx rfl (commitLoad_complete hload (Nat.le_refl 0)) (sameViews_tokens s _)]
  · intro rest hload hc hr
    refine ⟨_, exec_revocationReplacementEnd s, ?_⟩
    rw [replacementEnd_replaces hc hload hr, State.respond_tokens]
    exact ⟨rfl, rfl⟩

/-! ## Abandon Revocation Load (3.2.2) -/

theorem exec_abandonRevocationLoad (p : PortId) (s : State) :
    exec (.abandonRevocationLoad p) s = .next (serve p 0x26 .operator (lengthIs 0) abandonLoad s) := rfl

theorem abandonLoad_opened {s : State} {payload : List Byte} {l : LoadingList} (h : s.tokens.load = .opened l) :
    abandonLoad payload s = ⟨{ s with tokens := { s.tokens with load := .none } }, some ⟨.done, []⟩⟩ := by
  unfold abandonLoad
  simp only [h]
  rfl

theorem abandonLoad_not_opened {s : State} {payload : List Byte} (h : ∀ l, s.tokens.load ≠ .opened l) :
    abandonLoad payload s = ⟨s, some ⟨.state, []⟩⟩ := by
  unfold abandonLoad
  cases hs : s.tokens.load with
  | none => rfl
  | opened l => exact absurd hs (h l)
  | committing l => rfl

/-- Outside OPEN the row answers STATE and changes nothing else (R51). -/
theorem exec_abandonRevocationLoad_not_opened {s : State} {p : PortId} (hx : Executes s p 0x26 .operator [])
    (h : ∀ l, s.tokens.load ≠ .opened l) : exec (.abandonRevocationLoad p) s = .next (s.respond p ⟨.state, []⟩) := by
  rw [exec_abandonRevocationLoad, serve_answers hx rfl (abandonLoad_not_opened h) (SameViews.refl s)]

/-- Settles O29: OPEN by the rule of R51, NONE and COMMITTING by the one lemma about every other load state. -/
theorem abandonLoadDiscards : Obligations.AbandonLoadDiscards := by
  refine ⟨operatorOnly_of_serve exec_abandonRevocationLoad, fun s p hx => ⟨?_, ?_, ?_⟩⟩
  · intro l hload
    rw [exec_abandonRevocationLoad, serve_answers hx rfl (abandonLoad_opened hload) (sameViews_tokens s _)]
  · intro hload
    exact exec_abandonRevocationLoad_not_opened hx (by simp [hload])
  · intro l hload
    exact exec_abandonRevocationLoad_not_opened hx (by simp [hload])

end Sys2Proof.Machine
end
